-- ==== Sys2Proof/Word.lean ====
section
/-! DEFINITION. The bit-vector types of the message encoder: a byte of the message register, a 16-bit field,
a 32-bit command argument and a 40-bit command word (spec R4, R60). -/

namespace Sys2Proof

/-- A byte of `MSG` or of a record on `TX` (R4 "byte width", R20). -/
abbrev Byte := BitVec 8

/-- A 16-bit field value: the battery value or the speed sequence value (R41). -/
abbrev Half := BitVec 16

/-- The argument field `ARG` of a command word (R60). -/
abbrev Arg := BitVec 32

/-- A command word, presented whole on the command port (R60). -/
abbrev CmdWord := BitVec 40

end Sys2Proof
end

