-- ==== Sys2Proof/Config.lean ====
section
/-! DEFINITION. What the block's implementation fixes, and the values the spec leaves free (R4). -/

namespace Sys2Proof

/-- The arithmetic of `SETSPD`, parameter `SPEED_ARITH` (R4, R110, R118). -/
inductive SpeedArith where
  /-- `EXACT`: rational arithmetic on the operand's value. -/
  | exactRational
  /-- `F32_PIPELINE`: binary32 arithmetic, rounded at every operation. -/
  | f32Pipeline
  deriving DecidableEq, Repr

/-- What `SETSPD` writes for a speed below -1/20, parameter `SPEED_NEG_POLICY` (R4, R116). -/
inductive SpeedNegPolicy where
  /-- `WRAP`: the low 16 bits of the negative sequence value. -/
  | wrap
  /-- `DRAW`: any 16-bit value. -/
  | draw
  deriving DecidableEq, Repr

namespace Config

/-- `SPEED_ARITH` of this hardware is `EXACT` (R4). -/
def speedArith : SpeedArith := .exactRational

/-- `SPEED_NEG_POLICY` of this hardware is `WRAP` (R4). -/
def speedNegPolicy : SpeedNegPolicy := .wrap

/-- `SPEED_NUM` (R4). -/
def speedNum : Rat := 2236

/-- `SPEED_STEP` (R4). -/
def speedStep : Rat := 1 / 10

/-- `SPEED_EPS` (R4). -/
def speedEps : Rat := 1 / 20

/-- FREE VALUE. `RESET_CHK`: what byte 13 holds after the reset that makes the draw with this number
(R4 and R33 leave it open). DESIGN CHOICE: a fresh value at each reset (log entry 1). -/
opaque resetChk : Nat → Byte

/-- FREE VALUE. What `SETSPD` writes for a speed below -1/20 under `DRAW`, at the draw with this number
(R116). DESIGN CHOICE: its form (log entry 3). This hardware is `WRAP` and never uses it. -/
opaque speedDraw : Nat → Half

end Config

end Sys2Proof
end

