-- ==== Sys2Proof/Syntax.lean ====
section
/-! DEFINITION. The eight commands of MSGENC-1, one constructor per row of spec/opcode_table.json (R61, R64).
Operands are the fields R63 assembles, so an operand outside its domain can be written down: WellFormed.lean
tells the two apart. -/

namespace Sys2Proof

/-- A command with its operand (R61, R63). -/
inductive Instr where
  /-- `INIT` (R80): write the header and the default payload. -/
  | init
  /-- `SETMODE mode` (R82): 0 = Blank, 1 = Charge, 2 = Speed. -/
  | setmode (mode : BitVec 2)
  /-- `SETLED led` (R86): 0 = Off, 1 = On, 2 = Blink. -/
  | setled (led : BitVec 2)
  /-- `SETBAT bat` (R91): a 32-bit integer, every value legal. -/
  | setbat (bat : Arg)
  /-- `SETSPD spd` (R110): the bit pattern of a binary32 value. -/
  | setspd (spd : Arg)
  /-- `CHKSUM` (R130): answer the checksum, change nothing. -/
  | chksum
  /-- `FINAL` (R135): store the checksum and emit the message. -/
  | final
  /-- `RD idx` (R150): answer one byte of the message. -/
  | rd (idx : BitVec 4)
  deriving DecidableEq, Repr

end Sys2Proof
end

