-- ==== Sys2Proof/WellFormed.lean ====
section
/-! DEFINITION. Which commands have operands inside their encoded domains (R63, R67). A NaN speed is a well-formed
operand: its check belongs to the command's execution, not to the decoder (R69, R114). -/

namespace Sys2Proof

/-- The operand is one the decoder passes on: mode and LED codes 0 to 2, byte index 0 to 13 (R67, R69). -/
def Instr.wf : Instr → Bool
  | .init => true
  | .setmode mode => mode != 3
  | .setled led => led != 3
  | .setbat _ => true
  | .setspd _ => true
  | .chksum => true
  | .final => true
  | .rd idx => decide (idx.toNat < 14)

end Sys2Proof
end

