-- ==== Sys2Proof/Decode.lean ====
section
/-! DEFINITION. The command word: its fields, the decoder, total on all 2^40 words and rejecting by cause (R69), and
the encoder written from the formats of R62 and the opcode map of R64. -/

namespace Sys2Proof

/-- The fault causes of R160. `NONE` is no cause: it stands in `STATUS` only. -/
inductive Cause where
  | illegalOpcode
  | reservedArg
  | badMode
  | badLed
  | badIndex
  | speedNan
  deriving DecidableEq, Repr

/-- The cause codes of R160. -/
def Cause.code : Cause → BitVec 4
  | .illegalOpcode => 1
  | .reservedArg => 2
  | .badMode => 3
  | .badLed => 4
  | .badIndex => 5
  | .speedNan => 6

/-- `OP` = bits 39:32 (R60). -/
def opField (w : CmdWord) : BitVec 8 := w.extractLsb' 32 8

/-- `ARG` = bits 31:0 (R60). -/
def argField (w : CmdWord) : Arg := w.extractLsb' 0 32

/-- The command word with the given fields (R60). -/
def commandWord (op : BitVec 8) (arg : Arg) : CmdWord := op ++ arg

/-- What the decoder makes of a word: a command, or the fault the word raises. -/
inductive Decoded where
  | ok (i : Instr)
  | refused (c : Cause)
  deriving DecidableEq, Repr

/-- A command of format N: all of `ARG` must be zero (R62, R66). -/
def decodeNoOperand (a : Arg) (i : Instr) : Decoded :=
  if a = 0 then .ok i else .refused .reservedArg

/-- A command of format M or L: `ARG[31:2]` must be zero and the code in `ARG[1:0]` must not be 3
(R62, R66, R67; the reserved bits are looked at first, R163). -/
def decodeCode (a : Arg) (bad : Cause) (i : BitVec 2 → Instr) : Decoded :=
  if a.extractLsb' 2 30 ≠ 0 then .refused .reservedArg
  else if a.extractLsb' 0 2 = 3 then .refused bad
  else .ok (i (a.extractLsb' 0 2))

/-- A command of format I: `ARG[31:4]` must be zero and the index in `ARG[3:0]` below 14 (R62, R66, R67). -/
def decodeIndex (a : Arg) : Decoded :=
  if a.extractLsb' 4 28 ≠ 0 then .refused .reservedArg
  else if 14 ≤ (a.extractLsb' 0 4).toNat then .refused .badIndex
  else .ok (.rd (a.extractLsb' 0 4))

/-- The decoder of R69, by the opcode map of R64. -/
def decode (w : CmdWord) : Decoded :=
  match (opField w).toNat with
  | 1 => decodeNoOperand (argField w) .init
  | 2 => decodeCode (argField w) .badMode .setmode
  | 3 => decodeCode (argField w) .badLed .setled
  | 4 => .ok (.setbat (argField w))
  | 5 => .ok (.setspd (argField w))
  | 6 => decodeNoOperand (argField w) .chksum
  | 7 => decodeNoOperand (argField w) .final
  | 8 => decodeIndex (argField w)
  | _ => .refused .illegalOpcode

/-- The opcode of a command (R64). -/
def Instr.opcode : Instr → BitVec 8
  | .init => 0x01
  | .setmode _ => 0x02
  | .setled _ => 0x03
  | .setbat _ => 0x04
  | .setspd _ => 0x05
  | .chksum => 0x06
  | .final => 0x07
  | .rd _ => 0x08

/-- The argument of a command, its must-be-zero bits zero (R62, R63). -/
def Instr.argument : Instr → Arg
  | .init => 0
  | .setmode mode => mode.setWidth 32
  | .setled led => led.setWidth 32
  | .setbat bat => bat
  | .setspd spd => spd
  | .chksum => 0
  | .final => 0
  | .rd idx => idx.setWidth 32

/-- The word of a command (R60, R62, R64). -/
def encode (i : Instr) : CmdWord := commandWord i.opcode i.argument

/-- The command word whose bits are `w`, numbered as the opcode table numbers them (bit 39 most significant),
every bit from `nbits` up being zero. The block fetches nothing, so its words have no byte order (R43, R52).
DEDUCED (log entry 11). -/
def tableWord (nbits w : Nat) : CmdWord := BitVec.ofNat 40 (w % 2 ^ nbits)

/-- The command the decoder reads from a row's word, none where the word faults. -/
def decodeTableWord (nbits w : Nat) : Option Instr :=
  match decode (tableWord nbits w) with
  | .ok i => some i
  | .refused _ => none

end Sys2Proof
end

