-- ==== Sys2Proof/Machine/Message.lean ====
section
/-! DEFINITION. The message: 14 bytes (R20), its byte and 16-bit views (R6, R41), its default contents (R33, R80) and
its checksum (R130). The message register and every record on `TX` are of this type. -/

namespace Sys2Proof.Machine

/-- Fourteen bytes, byte 0 first (R4 `NCHAR`, R20, R42). -/
abbrev Message := Vector Byte 14

/-- `MSG[i]` (R6). -/
def msgByte (m : Message) (i : Fin 14) : Byte := m[i.val]

/-- `MSG[i] <- v` (R6). -/
def msgSet (m : Message) (i : Fin 14) (v : Byte) : Message := m.set i.val v

/-- `MSG16[i]`: byte `i` is the more significant (R41). -/
def msgHalf (m : Message) (i : Fin 13) : Half := msgByte m i.castSucc ++ msgByte m i.succ

/-- `MSG16[i] <- v`: byte `i` takes `v[15:8]`, byte `i + 1` takes `v[7:0]` (R6, R41). -/
def msgSetHalf (m : Message) (i : Fin 13) (v : Half) : Message :=
  msgSet (msgSet m i.castSucc (v.extractLsb' 8 8)) i.succ (v.extractLsb' 0 8)

/-- The bytes `INIT` and reset write (R80, R190), with `chk` in byte 13: start marker, two constants, error code,
mode Charge, reserved, battery 0, the speed sentinel `0x08F0`, LED fields 0. -/
def defaultMessage (chk : Byte) : Message :=
  #v[0x02, 0x0E, 0x01, 0x00, 0x01, 0x00, 0x00, 0x00, 0x08, 0xF0, 0x00, 0x00, 0x00, chk]

/-- The exclusive-or of bytes 0 to 12 (R130); byte 13 is no input of it. -/
def checksum (m : Message) : Byte :=
  msgByte m 0 ^^^ msgByte m 1 ^^^ msgByte m 2 ^^^ msgByte m 3 ^^^ msgByte m 4 ^^^ msgByte m 5 ^^^ msgByte m 6 ^^^
    msgByte m 7 ^^^ msgByte m 8 ^^^ msgByte m 9 ^^^ msgByte m 10 ^^^ msgByte m 11 ^^^ msgByte m 12

end Sys2Proof.Machine
end

