-- ==== Sys2Proof/Machine/State.lean ====
section
/-! DEFINITION. The state of the block (R20, R27, R28), the host's side of its ports (R29, R30, R190), and the state
right after reset (R33). -/

namespace Sys2Proof.Machine

/-- No command and no event stops the block: every fault of the spec is a next state (R161, R165), so no step ends in
a fault of this type, and the type has no constructor. DEDUCED (log entry 10). Safe: nothing is claimed of a stopped machine. -/
inductive Fault where
  deriving DecidableEq, Repr

/-- Why a step has no meaning. -/
inductive Refusal where
  /-- Raised by an arm of `exec` whose command has no meaning yet, and by nothing else. No arm raises it today.
  Safe: a run that meets it proves nothing about what follows. -/
  | notModelled (mnemonic : String)
  deriving DecidableEq, Repr

/-- The status register `STATUS` by its fields (R27): bit 7 is `FAULT`, bits 3:0 are `CAUSE`. Bits 6:4 are hardwired 0
and hold nothing: `StatusReg.toByte` supplies them. DESIGN CHOICE (log entry 8). -/
structure StatusReg where
  /-- `FAULT`: at least one fault since reset. -/
  fault : Bool
  /-- `CAUSE`: the code of the first fault since reset, 0 before it. -/
  cause : BitVec 4
  deriving DecidableEq, Repr

/-- The single response to a command (R29). -/
inductive Response where
  /-- `NONE`: the command returns nothing. -/
  | nothing
  /-- `DATA(b)`. -/
  | data (b : Byte)
  /-- `FAULT(c)`. -/
  | fault (c : Cause)
  deriving DecidableEq, Repr

/-- What the outside world does to the block next (R30, R190). -/
inductive HostEvent where
  /-- The host presents a command word on the command port. -/
  | command (w : CmdWord)
  /-- Reset, an event outside the command stream, between two commands. -/
  | reset
  deriving DecidableEq, Repr

/-- Everything the spec gives the block, and the model's own bookkeeping of what passes its ports. -/
structure State where
  /-- The message register `MSG[0..13]` (R20). -/
  msg : Message
  /-- The status register `STATUS` (R27). -/
  status : StatusReg
  /-- The transmit stream `TX`: every record emitted since reset, oldest first (R28). DESIGN CHOICE: the transport's taking of
  records is no step (log entry 12). -/
  tx : List Message
  /-- The MODEL'S OWN field: the response port as the last command left it, none while no command has completed since
  reset. No command reads it (R29 "not state"). DESIGN CHOICE (log entry 4). -/
  response : Option Response
  /-- The MODEL'S OWN field: what the host has yet to do, in order; the head is what is on the command port now
  (R26, R30). DESIGN CHOICE (log entry 2). -/
  inputs : List HostEvent
  /-- The MODEL'S OWN field: how many free values have been drawn. DESIGN CHOICE (log entries 1 and 3). -/
  draws : Nat
  deriving DecidableEq, Repr

/-- The state right after the first reset, with nothing presented on the command port (R33, R190). -/
def State.reset : State :=
  { msg := defaultMessage (Config.resetChk 0)
    status := { fault := false, cause := 0 }
    tx := []
    response := none
    inputs := []
    draws := 1 }

end Sys2Proof.Machine
end

