-- ==== Sys2Proof/Machine/Flags.lean ====
section
/-! DEFINITION. The status register's one computation, what a fault makes of it (R161), and the byte it drives on
`status_out` (R27). -/

namespace Sys2Proof.Machine

/-- `STATUS` after a fault with cause `c`: `CAUSE` is written by the first fault only, `FAULT` is set (R161). -/
def StatusReg.afterFault (r : StatusReg) (c : Cause) : StatusReg :=
  { fault := true, cause := if r.fault then r.cause else c.code }

/-- The register as a byte: `FAULT` in bit 7, bits 6:4 hardwired 0, `CAUSE` in bits 3:0 (R27). -/
def StatusReg.toByte (r : StatusReg) : Byte := BitVec.ofBool r.fault ++ 0#3 ++ r.cause

/-- `status_out[7:0]`, driven at all times (R27). -/
def State.statusOut (s : State) : Byte := s.status.toByte

end Sys2Proof.Machine
end

