-- ==== Sys2Proof/Machine/Ops.lean ====
section
/-! DEFINITION. The operations every command is written in (R6): reading and writing `MSG`, responding, emitting, the
fault mechanism (R161) and reset (R190). -/

namespace Sys2Proof.Machine

/-- Read `MSG[i]`. -/
def State.byte (s : State) (i : Fin 14) : Byte := msgByte s.msg i

/-- Read `MSG16[i]`. -/
def State.half (s : State) (i : Fin 13) : Half := msgHalf s.msg i

/-- Replace the message register. -/
def State.withMsg (s : State) (m : Message) : State := { s with msg := m }

/-- `MSG[i] <- v`. -/
def State.setByte (s : State) (i : Fin 14) (v : Byte) : State := s.withMsg (msgSet s.msg i v)

/-- `MSG16[i] <- v`. -/
def State.setHalf (s : State) (i : Fin 13) (v : Half) : State := s.withMsg (msgSetHalf s.msg i v)

/-- `respond(r)`: the command's single response (R29). -/
def State.respond (s : State) (r : Response) : State := { s with response := some r }

/-- `emit(MSG[0], ..., MSG[13])`: append the message register to `TX` as one record (R28, R42). -/
def State.emit (s : State) : State := { s with tx := s.tx ++ [s.msg] }

/-- Count `n` free values as drawn. -/
def State.countDraws (s : State) (n : Nat) : State := { s with draws := s.draws + n }

/-- Taking a fault, `raise Fault(c)`: `STATUS` records it, the command responds `FAULT(c)` and has no other effect
(R161). There is no vector and no saved pc, and no return from a fault (R161, R165): the host presents the next command. -/
def State.raiseFault (s : State) (c : Cause) : State :=
  { s with status := s.status.afterFault c, response := some (.fault c) }

/-- The reset event (R190): the reset values of R33, byte 13 a fresh free value
(DESIGN CHOICE, log entry 1). What the host does next is not the
block's state and stays. -/
def State.applyReset (s : State) : State :=
  { State.reset with
    msg := defaultMessage (Config.resetChk s.draws)
    inputs := s.inputs
    draws := s.draws + 1 }

end Sys2Proof.Machine
end

