-- ==== Sys2Proof/Machine/Operands.lean ====
section
/-! DEFINITION. The operand forms (R62, R63): the codes of `mode` and `led`, two's-complement truncation, and the
binary32 format with its rounding `fl32` (R5, R6, R110). -/

namespace Sys2Proof.Machine

/-- Mode code Blank (R63). -/
def modeBlank : BitVec 2 := 0

/-- The mode code outside the enumeration (R63, R67). -/
def modeBad : BitVec 2 := 3

/-- LED code Off (R63). -/
def ledOff : BitVec 2 := 0

/-- LED code On (R63). -/
def ledOn : BitVec 2 := 1

/-- LED code Blink (R63). -/
def ledBlink : BitVec 2 := 2

/-- `trunc16(n) = n mod 2^16` (R6). -/
def trunc16 (n : Int) : Half := BitVec.ofInt 16 n

/-- Sign bit of a binary32 pattern (R62). -/
def f32Sign (p : Arg) : Bool := p.getLsbD 31

/-- Biased exponent field (R62). -/
def f32Exp (p : Arg) : BitVec 8 := p.extractLsb' 23 8

/-- Fraction field (R62). -/
def f32Frac (p : Arg) : BitVec 23 := p.extractLsb' 0 23

/-- A NaN of either sign, quiet or signalling (R114). -/
def isNan (p : Arg) : Bool := f32Exp p == 0xFF && f32Frac p != 0

/-- An infinity of either sign (R115). -/
def isInf (p : Arg) : Bool := f32Exp p == 0xFF && f32Frac p == 0

/-- The signed integer `M` of a finite operand's value `M * 2^E` (R110, R111). -/
def f32Mant (p : Arg) : Int :=
  let mag : Int := if f32Exp p = 0 then (f32Frac p).toNat else 2 ^ 23 + (f32Frac p).toNat
  if f32Sign p then -mag else mag

/-- The exponent `E` of a finite operand's value `M * 2^E` (R110, R111). -/
def f32Pow (p : Arg) : Int := if f32Exp p = 0 then -149 else (f32Exp p).toNat - 150

/-- `2^e` as an exact rational. -/
def pow2 : Int → Rat
  | .ofNat n => ((2 ^ n : Nat) : Rat)
  | .negSucc n => mkRat 1 (2 ^ (n + 1))

/-- The exact value of a finite operand (R110 `v`). -/
def f32Value (p : Arg) : Rat := f32Mant p * pow2 (f32Pow p)

/-- `round(x)`: nearest integer, halves away from zero (R5). -/
def roundAway (x : Rat) : Int := if 0 ≤ x then (x + 1 / 2).floor else -(-x + 1 / 2).floor

/-- Nearest integer to a non-negative rational, ties to even (R6 `fl32`). -/
def roundEven (x : Rat) : Nat :=
  let below := x.floor
  let rest := x - below
  if rest < 1 / 2 then below.toNat
  else if 1 / 2 < rest then (below + 1).toNat
  else if below % 2 = 0 then below.toNat
  else (below + 1).toNat

/-- `floor(log2 x)` of a positive rational: the quotient of the two leading powers of two is it, or one above it. -/
def floorLog2 (x : Rat) : Int :=
  let guess : Int := (x.num.toNat.log2 : Int) - (x.den.log2 : Int)
  if pow2 guess ≤ x then guess else guess - 1

/-- The 31-bit pattern (exponent and fraction fields) of the binary32 value nearest a non-negative rational, ties to
even; the infinity's pattern where the rounded value is beyond the largest finite one (R6; PRESUMED: IEEE 754,
log entry 7). The unit in the
last place is `2^u`; a rounded significand of `2^24` carries into the exponent field by the addition. -/
def roundMagnitude (x : Rat) : Nat :=
  if x = 0 then 0
  else
    let u : Int := max (floorLog2 x - 23) (-149)
    min (((u + 149).toNat) * 2 ^ 23 + roundEven (x / pow2 u)) 0x7F800000

/-- A binary32 pattern from its sign and its 31-bit magnitude. -/
def f32Pattern (negative : Bool) (mag : Nat) : Arg := BitVec.ofBool negative ++ BitVec.ofNat 31 mag

/-- `fl32(x)`: the pattern of the binary32 value nearest `x`, ties to even; zero is `+0` (R6). -/
def fl32 (x : Rat) : Arg :=
  if x < 0 then f32Pattern true (roundMagnitude (-x)) else f32Pattern false (roundMagnitude x)

end Sys2Proof.Machine
end

