-- ==== Sys2Proof/Machine/Checksum.lean ====
section
/-! DEFINITION. The XOR checksum generator: `CHKSUM`, `FINAL` (spec 42_checksum.md). -/

namespace Sys2Proof.Machine

/-- `CHKSUM` (R130): answer the checksum; nothing is written. -/
def execChksum (s : State) : Host.Outcome State Fault Refusal :=
  .next (s.respond (.data (checksum s.msg)))

/-- `FINAL` (R135): byte 13 takes the checksum and the message, with that byte, is emitted, in one step. -/
def execFinal (s : State) : Host.Outcome State Fault Refusal :=
  .next (((s.setByte 13 (checksum s.msg)).emit).respond .nothing)

end Sys2Proof.Machine
end

