-- ==== Sys2Proof/Machine/FieldPacker.lean ====
section
/-! DEFINITION. The field packer: `INIT`, `SETMODE`, `SETLED`, `SETBAT` (spec 40_field_packer.md). -/

namespace Sys2Proof.Machine

/-- `INIT` (R80): bytes 0 to 12 take the default message; byte 13 and `STATUS` are kept. -/
def execInit (s : State) : Host.Outcome State Fault Refusal :=
  .next ((s.withMsg (defaultMessage (s.byte 13))).respond .nothing)

/-- `SETMODE` (R82): byte 4 takes the code; Blank also stamps byte 10 with `0xF0`, whatever it held (R83).
Code 3 faults `BAD_MODE` (R67). -/
def execSetmode (mode : BitVec 2) (s : State) : Host.Outcome State Fault Refusal :=
  if mode = modeBad then .next (s.raiseFault .badMode)
  else if mode = modeBlank then .next (((s.setByte 4 (mode.setWidth 8)).setByte 10 0xF0).respond .nothing)
  else .next ((s.setByte 4 (mode.setWidth 8)).respond .nothing)

/-- `SETLED` (R86): Off and On write bytes 10 to 12, Blink sets bit 7 of byte 12 and clears nothing (R88).
Code 3 faults `BAD_LED` (R67). -/
def execSetled (led : BitVec 2) (s : State) : Host.Outcome State Fault Refusal :=
  if led = ledOff then .next ((((s.setByte 10 0x00).setByte 11 0x00).setByte 12 0x00).respond .nothing)
  else if led = ledOn then .next ((((s.setByte 10 0xF1).setByte 11 0x80).setByte 12 0x00).respond .nothing)
  else if led = ledBlink then .next ((s.setByte 12 (s.byte 12 ||| 0x80)).respond .nothing)
  else .next (s.raiseFault .badLed)

/-- `SETBAT` (R91): bytes 6 and 7 take the operand modulo 2^16, big-endian; no saturation, no rejection. -/
def execSetbat (bat : Arg) (s : State) : Host.Outcome State Fault Refusal :=
  .next ((s.setHalf 6 (trunc16 bat.toInt)).respond .nothing)

end Sys2Proof.Machine
end

