-- ==== Sys2Proof/Machine/ReadBack.lean ====
section
/-! DEFINITION. Read-back: `RD` (spec 43_readback.md). -/

namespace Sys2Proof.Machine

/-- `RD` (R150): answer byte `idx` as it stands; nothing is written. Indices 14 and 15 name no byte and fault
`BAD_INDEX` (R67). -/
def execRd (idx : BitVec 4) (s : State) : Host.Outcome State Fault Refusal :=
  if h : idx.toNat < 14 then .next (s.respond (.data (s.byte ⟨idx.toNat, h⟩)))
  else .next (s.raiseFault .badIndex)

end Sys2Proof.Machine
end

