-- ==== Sys2Proof/Machine/SpeedEncoder.lean ====
section
/-! DEFINITION. The speed encoder: `SETSPD` (spec 41_speed_encoder.md), under every value of its two parameters. The
block's arithmetic is `EXACT`, written in the integers of R111; that it is the rational arithmetic of R110 is stated
as an obligation. DEDUCED (log entry 9). -/

namespace Sys2Proof.Machine

/-- Step 1 in integers (R111): `k = floor(10 v + 1/2)` for `v = mant * 2^pow`; `/` rounds toward minus infinity. -/
def speedIndex (mant pow : Int) : Int :=
  match pow with
  | .ofNat n => (20 * mant * 2 ^ n + 1) / 2
  | .negSucc n => (20 * mant + 2 ^ (n + 1)) / 2 ^ (n + 2)

/-- Steps 2 and 3 in integers (R111): `44720 / (2k + 1)`, rounded to the nearest integer. -/
def sequenceOf (k : Int) : Int :=
  let n := 2 * k + 1
  if 0 < n then (89440 + n) / (2 * n) else -((89440 - n) / (-2 * n))

/-- `SPEED_ARITH` = `EXACT` on a finite operand: `k` and `seq` (R110, R111). -/
def exactSteps (spd : Arg) : Int × Int :=
  let k := speedIndex (f32Mant spd) (f32Pow spd)
  (k, sequenceOf k)

/-- `SPEED_ARITH` = `F32_PIPELINE` on a finite operand: `t2` and `seq`, none where `t1` overflows to an infinity
(R118). -/
def f32Steps (spd : Arg) : Option (Int × Int) :=
  let c1 := f32Value (fl32 Config.speedStep)
  let c2 := f32Value (fl32 Config.speedEps)
  let c3 := f32Value (fl32 Config.speedNum)
  let t1 := fl32 (f32Value spd / c1)
  if isInf t1 then none
  else
    let t2 : Int := (f32Value (fl32 (f32Value t1 + 1 / 2))).floor
    let t3 := f32Value (fl32 (t2 * c1))
    let t4 := f32Value (fl32 (t3 + c2))
    let t5 := f32Value (fl32 (c3 / t4))
    some (t2, roundAway t5)

/-- The quantized speed and the sequence value of an operand that is no NaN; none where the sequence value is 0 for
an infinity (R115, R118). -/
def speedSteps (arith : SpeedArith) (spd : Arg) : Option (Int × Int) :=
  if isInf spd then none
  else
    match arith with
    | .exactRational => some (exactSteps spd)
    | .f32Pipeline => f32Steps spd

/-- The 16-bit value of bytes 8 and 9, `draw` being the free value a negative speed takes under `DRAW` (R110 step 4,
R115, R116). -/
def speedHalf (arith : SpeedArith) (policy : SpeedNegPolicy) (draw : Half) (spd : Arg) : Half :=
  match speedSteps arith spd with
  | none => 0
  | some (k, seq) => if k < 0 ∧ policy = .draw then draw else trunc16 seq

/-- How many free values the operand takes: one for a negative quantized speed under `DRAW`, else none (R116). -/
def speedDraws (arith : SpeedArith) (policy : SpeedNegPolicy) (spd : Arg) : Nat :=
  match speedSteps arith spd with
  | none => 0
  | some (k, _) => if k < 0 ∧ policy = .draw then 1 else 0

/-- `SETSPD` under given parameters (R110, R118): a NaN faults `SPEED_NAN` (R114), any other operand writes bytes 8
and 9. -/
def setspdWith (arith : SpeedArith) (policy : SpeedNegPolicy) (spd : Arg) (s : State) :
    Host.Outcome State Fault Refusal :=
  if isNan spd then .next (s.raiseFault .speedNan)
  else
    .next (((s.setHalf 8 (speedHalf arith policy (Config.speedDraw s.draws) spd)).countDraws
      (speedDraws arith policy spd)).respond .nothing)

/-- `SETSPD` (R110) of this hardware (R4). -/
def execSetspd (spd : Arg) (s : State) : Host.Outcome State Fault Refusal :=
  setspdWith Config.speedArith Config.speedNegPolicy spd s

end Sys2Proof.Machine
end

