-- ==== Sys2Proof/Machine/Dispatch.lean ====
section
/-! DEFINITION. One arm per command: its meaning. -/

namespace Sys2Proof.Machine

def exec (i : Instr) (s : State) : Host.Outcome State Fault Refusal :=
  match i with
  | .init => Sys2Proof.Machine.execInit s
  | .setmode mode => Sys2Proof.Machine.execSetmode mode s
  | .setled led => Sys2Proof.Machine.execSetled led s
  | .setbat bat => Sys2Proof.Machine.execSetbat bat s
  | .setspd spd => Sys2Proof.Machine.execSetspd spd s
  | .chksum => Sys2Proof.Machine.execChksum s
  | .final => Sys2Proof.Machine.execFinal s
  | .rd idx => Sys2Proof.Machine.execRd idx s

end Sys2Proof.Machine
end

