-- ==== Sys2Proof/Machine/Fetch.lean ====
section
/-! DEFINITION. What the block does with what the host presents: a command word is decoded and run, or raises the
fault the decoder names (R69, R161); a reset resets (R190). The block fetches nothing itself (R52). -/

namespace Sys2Proof.Machine

/-- Run one command word (R69). -/
def execWord (w : CmdWord) (s : State) : Host.Outcome State Fault Refusal :=
  match decode w with
  | .ok i => exec i s
  | .refused c => .next (s.raiseFault c)

/-- Take one host event (R30, R190). -/
def runEvent (e : HostEvent) (s : State) : Host.Outcome State Fault Refusal :=
  match e with
  | .command w => execWord w s
  | .reset => .next s.applyReset

/-- Take the event at the head of what the host does next; with nothing presented the block is idle and holds its
state (R26, R172). DESIGN CHOICE: the list (log entry 2). -/
def takeEvent (s : State) : Host.Outcome State Fault Refusal :=
  match s.inputs with
  | [] => .next s
  | e :: rest => runEvent e { s with inputs := rest }

/-- Put a command word on the command port, before everything else the host does next. -/
def State.present (s : State) (w : CmdWord) : State := { s with inputs := .command w :: s.inputs }

end Sys2Proof.Machine
end

