-- ==== Sys2Proof/Machine/Step.lean ====
section
/-! DEFINITION. One step: one host event taken whole, atomically (R46, R49). -/

namespace Sys2Proof.Machine

/-- One step of the block. -/
def step (s : State) : Host.Outcome State Fault Refusal := takeEvent s

/-- `s` with the row's word on the command port, so that the very next step runs it. DESIGN CHOICE (log entry 5). -/
def State.withFetchWord (s : State) (nbits w : Nat) : State := s.present (tableWord nbits w)

end Sys2Proof.Machine
end

