-- ==== Sys2Proof/Machine/Assembler.lean ====
section
/-! DEFINITION. The assembler notation of R70 to R72: one command a line, its words, the one pseudo-instruction, and
the spelling of a word. Text is a list of characters. No part of the block: it says which words a source line stands
for. -/

namespace Sys2Proof.Machine

/-- Blanks between the words of a line. -/
def isBlankChar (c : Char) : Bool := c == ' ' || c == '\t' || c == '\r'

/-- Split at blanks; `word` holds the current word, last character first. -/
def splitWords : List Char → List Char → List (List Char)
  | [], word => if word.isEmpty then [] else [word.reverse]
  | c :: rest, word =>
    if isBlankChar c then (if word.isEmpty then splitWords rest [] else word.reverse :: splitWords rest [])
    else splitWords rest (c :: word)

/-- The words of a line in capitals, its comment left out (R70: case-insensitive, `;` starts a comment). -/
def lineWords (line : List Char) : List (List Char) :=
  splitWords ((line.takeWhile (· != ';')).map Char.toUpper) []

/-- The value of a digit below `base` (capitals only). -/
def digitValue (base : Nat) (c : Char) : Option Nat :=
  let v := if '0' ≤ c ∧ c ≤ '9' then some (c.toNat - 48)
    else if 'A' ≤ c ∧ c ≤ 'F' then some (c.toNat - 55) else none
  v.bind fun n => if n < base then some n else none

/-- Digits after a value already read. -/
def digitsFrom (base : Nat) : Nat → List Char → Option Nat
  | acc, [] => some acc
  | acc, c :: rest => (digitValue base c).bind fun d => digitsFrom base (acc * base + d) rest

/-- A non-empty run of digits. -/
def parseDigits (base : Nat) (cs : List Char) : Option Nat :=
  if cs.isEmpty then none else digitsFrom base 0 cs

/-- An unsigned integer, decimal or `0x` hexadecimal (R5, R70). -/
def parseNat : List Char → Option Nat
  | '0' :: 'X' :: rest => parseDigits 16 rest
  | cs => parseDigits 10 cs

/-- An integer with an optional minus sign. -/
def parseInt : List Char → Option Int
  | '-' :: rest => (parseNat rest).map fun n => -(n : Int)
  | cs => (parseNat cs).map fun n => (n : Int)

/-- The magnitude of a decimal real literal: digits, and optionally a point and digits. DESIGN CHOICE
(log entry 6, as for blanks, the integers of `RD` and literals too large). -/
def parseMagnitude (cs : List Char) : Option Rat :=
  let whole := cs.takeWhile (· != '.')
  match cs.dropWhile (· != '.') with
  | [] => (parseDigits 10 whole).map fun n => (n : Rat)
  | _ :: frac =>
    if whole.isEmpty || frac.isEmpty then none
    else (parseDigits 10 (whole ++ frac)).map fun n => mkRat n (10 ^ frac.length)

/-- The operand of `SETSPD`: `bits:0xHHHHHHHH`, or a decimal real literal rounded by `fl32` (R70). A minus sign is
the sign bit, so `-0.0` is the negative zero. -/
def parseSpeed : List Char → Option Arg
  | 'B' :: 'I' :: 'T' :: 'S' :: ':' :: '0' :: 'X' :: hex =>
    if hex.length = 8 then (parseDigits 16 hex).map fun n => BitVec.ofNat 32 n else none
  | '-' :: rest => (parseMagnitude rest).map fun x => f32Pattern true (roundMagnitude x)
  | cs => (parseMagnitude cs).map fun x => f32Pattern false (roundMagnitude x)

/-- The operand of `SETMODE` (R70). -/
def parseMode (cs : List Char) : Option (BitVec 2) :=
  if cs = "BLANK".toList ∨ cs = "0".toList then some 0
  else if cs = "CHARGE".toList ∨ cs = "1".toList then some 1
  else if cs = "SPEED".toList ∨ cs = "2".toList then some 2
  else none

/-- The operand of `SETLED` (R70). -/
def parseLed (cs : List Char) : Option (BitVec 2) :=
  if cs = "OFF".toList ∨ cs = "0".toList then some 0
  else if cs = "ON".toList ∨ cs = "1".toList then some 1
  else if cs = "BLINK".toList ∨ cs = "2".toList then some 2
  else none

/-- The operand of `SETBAT`: `-2^31 <= n < 2^32`, taken modulo 2^32 (R70). -/
def parseBattery (cs : List Char) : Option Arg :=
  (parseInt cs).bind fun n => if -2 ^ 31 ≤ n ∧ n < 2 ^ 32 then some (BitVec.ofInt 32 n) else none

/-- The operand of `RD`: an integer 0 to 13 (R70). -/
def parseIndex (cs : List Char) : Option (BitVec 4) :=
  (parseNat cs).bind fun n => if n ≤ 13 then some (BitVec.ofNat 4 n) else none

/-- The commands of one line; none is an assembly error (R70). `BLANKLEDON` is two commands (R71). -/
def assembleLine (line : List Char) : Option (List Instr) :=
  match lineWords line with
  | [] => some []
  | [m] =>
    if m = "INIT".toList then some [.init]
    else if m = "CHKSUM".toList then some [.chksum]
    else if m = "FINAL".toList then some [.final]
    else if m = "BLANKLEDON".toList then some [.setmode 0, .setled 1]
    else none
  | [m, a] =>
    if m = "SETMODE".toList then (parseMode a).map fun x => [.setmode x]
    else if m = "SETLED".toList then (parseLed a).map fun x => [.setled x]
    else if m = "SETBAT".toList then (parseBattery a).map fun x => [.setbat x]
    else if m = "SETSPD".toList then (parseSpeed a).map fun x => [.setspd x]
    else if m = "RD".toList then (parseIndex a).map fun x => [.rd x]
    else none
  | _ => none

/-- The words of a source line (R70). -/
def assembleWords (line : List Char) : Option (List CmdWord) := (assembleLine line).map (List.map encode)

/-- A hexadecimal digit, in capitals. -/
def hexDigit (n : Nat) : Char := if n < 10 then Char.ofNat (48 + n) else Char.ofNat (55 + n)

/-- The last `count` hexadecimal digits of `n`, most significant first. -/
def hexDigits : Nat → Nat → List Char
  | 0, _ => []
  | count + 1, n => hexDigits count (n / 16) ++ [hexDigit (n % 16)]

/-- The spelling `OO_AAAAAAAA` of a command word (R72). -/
def spellWord (w : CmdWord) : List Char :=
  hexDigits 2 (opField w).toNat ++ '_' :: hexDigits 8 (argField w).toNat

end Sys2Proof.Machine
end

