-- ==== Sys2Proof/Safety.lean ====
section
/-! DEFINITION. What claims are stated in: a fresh checksum (R32), a run without a fault (R165), the values the block
can reach (R23, R25, R27, R90, R137), and the states a host's script leads to. -/

namespace Sys2Proof.Machine

/-- Byte 13 is the checksum of the other bytes (R32 `fresh`). -/
abbrev fresh (m : Message) : Prop := msgByte m 13 = checksum m

/-- The no-fault premise of R165. -/
abbrev State.noFault (s : State) : Prop := s.status.fault = false

/-- `t` differs from `s` at most in the message register and the response: `STATUS`, `TX`, what the host does next and
the number of draws are as before. -/
abbrev keepsAllButMsg (s t : State) : Prop :=
  t.status = s.status ∧ t.tx = s.tx ∧ t.inputs = s.inputs ∧ t.draws = s.draws

/-- A word's opcode names no command (R65). -/
abbrev opcodeIllegal (w : CmdWord) : Prop := (opField w).toNat = 0 ∨ 9 ≤ (opField w).toNat

/-- A word with a legal opcode has a must-be-zero bit of its format set (R62, R66). -/
abbrev reservedBitSet (w : CmdWord) : Prop :=
  ((opField w = 0x01 ∨ opField w = 0x06 ∨ opField w = 0x07) ∧ argField w ≠ 0) ∨
  ((opField w = 0x02 ∨ opField w = 0x03) ∧ (argField w).extractLsb' 2 30 ≠ 0) ∨
  (opField w = 0x08 ∧ (argField w).extractLsb' 4 28 ≠ 0)

/-- The header bytes hold their constants (R23). -/
abbrev headerConstant (m : Message) : Prop :=
  msgByte m 0 = 0x02 ∧ msgByte m 1 = 0x0E ∧ msgByte m 2 = 0x01 ∧ msgByte m 3 = 0x00 ∧ msgByte m 5 = 0x00

/-- The mode byte holds a mode code (R25). -/
abbrev modeLegal (m : Message) : Prop := msgByte m 4 = 0 ∨ msgByte m 4 = 1 ∨ msgByte m 4 = 2

/-- The eight values of bytes 10, 11, 12 (R90). -/
def ledValues : List (Byte × Byte × Byte) :=
  [(0x00, 0x00, 0x00), (0x00, 0x00, 0x80), (0xF1, 0x80, 0x00), (0xF1, 0x80, 0x80),
    (0xF0, 0x00, 0x00), (0xF0, 0x00, 0x80), (0xF0, 0x80, 0x00), (0xF0, 0x80, 0x80)]

/-- The LED control field (bytes 10, 11, 12) of a message. -/
def ledField (m : Message) : Byte × Byte × Byte := (msgByte m 10, msgByte m 11, msgByte m 12)

/-- `STATUS` holds no cause before the first fault and a cause code 1 to 6 after it (R27, R160). -/
abbrev statusLegal (r : StatusReg) : Prop :=
  (r.fault = false ∧ r.cause = 0) ∨ (r.fault = true ∧ 1 ≤ r.cause.toNat ∧ r.cause.toNat ≤ 6)

/-- The invariant of the block: header constants (R23), a legal mode (R25), one of the eight LED fields (R90), a legal
`STATUS` (R27), every record with its start marker and its own checksum (R137), byte 13 as the last record has it, and
before the first record byte 13 as the last reset left it (R25; the numbering of the draws is the model's: DESIGN
CHOICE, log entry 1). -/
structure Inv (s : State) : Prop where
  header : headerConstant s.msg
  mode : modeLegal s.msg
  led : ledField s.msg ∈ ledValues
  status : statusLegal s.status
  records : ∀ r ∈ s.tx, msgByte r 0 = 0x02 ∧ fresh r
  lastRecord : ∀ r, s.tx.getLast? = some r → msgByte s.msg 13 = msgByte r 13
  noRecord : s.tx = [] → ∃ n, n + 1 = s.draws ∧ msgByte s.msg 13 = Config.resetChk n

/-- The reset state with a script of what the host will do. -/
def State.withInputs (s : State) (es : List HostEvent) : State := { s with inputs := es }

/-- Some script of host events, started at reset, leads to `s` in some number of steps. -/
def Reachable (s : State) : Prop :=
  ∃ (es : List HostEvent) (k : Nat),
    Host.Core.run Sys2Proof.core k (State.reset.withInputs es) = Host.Outcome.next s

end Sys2Proof.Machine
end

