-- ==== Sys2Proof/Certificates/Slice0/Obligations.lean ====
section
/-! DEFINITION. What the provers are asked to show of the message encoder, from the numbered rules of the spec. -/

open Sys2Proof Sys2Proof.Machine

/-! ### Encoding -/

/-- R60, R62 to R64: no bit of a well-formed command is lost in its word. -/
def Obligations.DecodeOfEncodeIsTheCommand : Prop :=
  ∀ i : Instr, i.wf = true → decode (encode i) = .ok i

/-- R68: a word that is a command is that command's only word, with its operand inside the encoded domain. -/
def Obligations.DecodedWordIsTheCommandsOnlyWord : Prop :=
  ∀ (w : CmdWord) (i : Instr), decode w = .ok i → i.wf = true ∧ encode i = w

/-- R69: every word runs, or faults, as the pseudocode's cases say. -/
def Obligations.WordsRunAsTheDecoderPseudocodeSays : Prop :=
  ∀ (w : CmdWord) (s : State),
    (opField w = 0x01 → execWord w s =
      if argField w ≠ 0 then .next (s.raiseFault .reservedArg) else exec .init s) ∧
    (opField w = 0x02 → execWord w s =
      if (argField w).extractLsb' 2 30 ≠ 0 then .next (s.raiseFault .reservedArg)
      else if (argField w).extractLsb' 0 2 = 3 then .next (s.raiseFault .badMode)
      else exec (.setmode ((argField w).extractLsb' 0 2)) s) ∧
    (opField w = 0x03 → execWord w s =
      if (argField w).extractLsb' 2 30 ≠ 0 then .next (s.raiseFault .reservedArg)
      else if (argField w).extractLsb' 0 2 = 3 then .next (s.raiseFault .badLed)
      else exec (.setled ((argField w).extractLsb' 0 2)) s) ∧
    (opField w = 0x04 → execWord w s = exec (.setbat (argField w)) s) ∧
    (opField w = 0x05 → execWord w s = exec (.setspd (argField w)) s) ∧
    (opField w = 0x06 → execWord w s =
      if argField w ≠ 0 then .next (s.raiseFault .reservedArg) else exec .chksum s) ∧
    (opField w = 0x07 → execWord w s =
      if argField w ≠ 0 then .next (s.raiseFault .reservedArg) else exec .final s) ∧
    (opField w = 0x08 → execWord w s =
      if (argField w).extractLsb' 4 28 ≠ 0 then .next (s.raiseFault .reservedArg)
      else if 14 ≤ ((argField w).extractLsb' 0 4).toNat then .next (s.raiseFault .badIndex)
      else exec (.rd ((argField w).extractLsb' 0 4)) s) ∧
    ((opField w).toNat = 0 ∨ 9 ≤ (opField w).toNat → execWord w s = .next (s.raiseFault .illegalOpcode))

/-- R72 and the opcode table: one word of each row, written out, is the command it stands for. -/
def Obligations.WrittenOutWordsDecode : Prop :=
  decode 0x0100000000 = .ok .init ∧
  decode 0x0200000002 = .ok (.setmode 2) ∧
  decode 0x0300000002 = .ok (.setled 2) ∧
  decode 0x04000003E7 = .ok (.setbat 999) ∧
  decode 0x0541CC0000 = .ok (.setspd 0x41CC0000) ∧
  decode 0x0600000000 = .ok .chksum ∧
  decode 0x0700000000 = .ok .final ∧
  decode 0x080000000D = .ok (.rd 13)

/-- R26, R30, R46, R49, R172: a step with a command word on the port is that command, run on the state with the word
taken off the port; the word's own fault, where the decoder refuses it; and idle where nothing is presented. -/
def Obligations.StepRunsTheDecodedCommand : Prop :=
  ∀ (s : State) (w : CmdWord) (rest : List HostEvent),
    (s.inputs = [] → step s = .next s) ∧
    (s.inputs = .command w :: rest →
      (∀ i, decode w = .ok i → step s = exec i { s with inputs := rest }) ∧
      (∀ c, decode w = .refused c → step s = .next ({ s with inputs := rest }.raiseFault c)))

/-! ### Faults and STATUS -/

/-- R65: an illegal opcode, the all-zero word's among them, faults and changes nothing else. -/
def Obligations.IllegalOpcodeFaultsAndChangesNothingElse : Prop :=
  ∀ (w : CmdWord) (s : State), opcodeIllegal w →
    ∃ t, execWord w s = .next t ∧ t.response = some (.fault .illegalOpcode) ∧ t.msg = s.msg ∧ t.tx = s.tx ∧
      t.inputs = s.inputs ∧ t.draws = s.draws

/-- R66: a non-zero must-be-zero bit faults `RESERVED_ARG`; formats B and S have none. -/
def Obligations.ReservedBitFaults : Prop :=
  ∀ (w : CmdWord) (s : State),
    (reservedBitSet w → execWord w s = .next (s.raiseFault .reservedArg)) ∧
    (opField w = 0x04 ∨ opField w = 0x05 →
      ¬ reservedBitSet w ∧ ∀ t, execWord w s = .next t → t.response ≠ some (.fault .reservedArg))

/-- R67: an operand outside its domain faults with the cause of its opcode. -/
def Obligations.OperandOutsideItsDomainFaults : Prop :=
  ∀ (w : CmdWord) (s : State), ¬ reservedBitSet w →
    (opField w = 0x02 → (argField w).extractLsb' 0 2 = 3 → execWord w s = .next (s.raiseFault .badMode)) ∧
    (opField w = 0x03 → (argField w).extractLsb' 0 2 = 3 → execWord w s = .next (s.raiseFault .badLed)) ∧
    (opField w = 0x08 → (argField w).extractLsb' 0 4 = 14 ∨ (argField w).extractLsb' 0 4 = 15 →
      execWord w s = .next (s.raiseFault .badIndex)) ∧
    (opField w = 0x05 → isNan (argField w) = true → execWord w s = .next (s.raiseFault .speedNan))

/-- R161: a command that responds with a fault has had no other effect than on `STATUS`. -/
def Obligations.FaultingCommandOnlyRecordsTheFault : Prop :=
  ∀ (w : CmdWord) (s t : State) (c : Cause), execWord w s = .next t → t.response = some (.fault c) →
    t.msg = s.msg ∧ t.tx = s.tx ∧ t.inputs = s.inputs ∧ t.draws = s.draws ∧
    t.status.fault = true ∧ (s.status.fault = false → t.status.cause = c.code) ∧
    (s.status.fault = true → t.status.cause = s.status.cause)

/-- R163: of the faults that apply to one word, the first in the fixed order is the one reported. -/
def Obligations.FaultIsTheFirstByPriority : Prop :=
  (∀ (w : CmdWord) (s t : State) (c : Cause), execWord w s = .next t → t.response = some (.fault c) →
    (opcodeIllegal w → c = .illegalOpcode) ∧
    (¬ opcodeIllegal w → reservedBitSet w → c = .reservedArg) ∧
    (¬ opcodeIllegal w → ¬ reservedBitSet w →
      (opField w = 0x02 ∧ c = .badMode) ∨ (opField w = 0x03 ∧ c = .badLed) ∨ (opField w = 0x08 ∧ c = .badIndex) ∨
      (opField w = 0x05 ∧ c = .speedNan))) ∧
  ∀ s, execWord 0x0200000007 s = .next (s.raiseFault .reservedArg)

/-- R27, R160: the byte on `status_out`, bits 6:4 zero in every state, and what the first fault after reset makes of
it. -/
def Obligations.StatusByteLayout : Prop :=
  ∀ s : State,
    s.statusOut.getLsbD 7 = s.status.fault ∧ s.statusOut.extractLsb' 4 3 = 0 ∧
    s.statusOut.extractLsb' 0 4 = s.status.cause ∧
    (s.status.fault = false →
      (s.raiseFault .illegalOpcode).statusOut = 0x81 ∧ (s.raiseFault .reservedArg).statusOut = 0x82 ∧
      (s.raiseFault .badMode).statusOut = 0x83 ∧ (s.raiseFault .badLed).statusOut = 0x84 ∧
      (s.raiseFault .badIndex).statusOut = 0x85 ∧ (s.raiseFault .speedNan).statusOut = 0x86)

/-- R27, R165: once a fault is recorded, no step but a reset changes `STATUS`. -/
def Obligations.RecordedFaultStaysUntilReset : Prop :=
  ∀ s t : State, step s = .next t → (∀ rest, s.inputs ≠ .reset :: rest) → s.status.fault = true →
    t.status = s.status

/-- R31, R165: what a command does to `MSG`, what it responds and what it emits depend on `MSG` alone, so a recorded
fault does not change what later commands do. -/
def Obligations.CommandsDependOnTheMessageAlone : Prop :=
  ∀ (i : Instr) (s s' : State), s.msg = s'.msg →
    ∃ t t' emitted, exec i s = .next t ∧ exec i s' = .next t' ∧ t.msg = t'.msg ∧ t.response = t'.response ∧
      t.tx = s.tx ++ emitted ∧ t'.tx = s'.tx ++ emitted

/-- R29: every command leaves exactly one response, of the kind its command has, and nothing of the response before
it. -/
def Obligations.EveryCommandAnswersOneResponse : Prop :=
  ∀ (w : CmdWord) (s : State),
    (∃ t r, execWord w s = .next t ∧ t.response = some r ∧
      (∀ b, r = .data b → decode w = .ok .chksum ∨ ∃ idx, decode w = .ok (.rd idx)) ∧
      (r = .nothing → ∃ i, decode w = .ok i ∧ i ≠ .chksum ∧ ∀ idx, i ≠ .rd idx)) ∧
    ∀ r', execWord w { s with response := r' } = execWord w s

/-- R165, R172: no state stops the block; whatever it holds and whatever is presented, a step leads on. -/
def Obligations.BlockNeverStops : Prop :=
  ∀ s : State, ∃ t, step s = .next t

/-! ### The message register -/

/-- R22, for commands: which of them change each byte of `MSG`. -/
def Obligations.EachByteIsWrittenByItsCommandsOnly : Prop :=
  ∀ (i : Instr) (s t : State), exec i s = .next t →
    (t.byte 0 ≠ s.byte 0 ∨ t.byte 1 ≠ s.byte 1 ∨ t.byte 2 ≠ s.byte 2 ∨ t.byte 3 ≠ s.byte 3 ∨ t.byte 5 ≠ s.byte 5 →
      i = .init) ∧
    (t.byte 4 ≠ s.byte 4 → i = .init ∨ ∃ mode, i = .setmode mode) ∧
    (t.byte 6 ≠ s.byte 6 ∨ t.byte 7 ≠ s.byte 7 → i = .init ∨ ∃ bat, i = .setbat bat) ∧
    (t.byte 8 ≠ s.byte 8 ∨ t.byte 9 ≠ s.byte 9 → i = .init ∨ ∃ spd, i = .setspd spd) ∧
    (t.byte 10 ≠ s.byte 10 → i = .init ∨ i = .setmode 0 ∨ i = .setled 0 ∨ i = .setled 1) ∧
    (t.byte 11 ≠ s.byte 11 → i = .init ∨ i = .setled 0 ∨ i = .setled 1) ∧
    (t.byte 12 ≠ s.byte 12 → i = .init ∨ i = .setled 0 ∨ i = .setled 1 ∨ i = .setled 2) ∧
    (t.byte 13 ≠ s.byte 13 → i = .final) ∧
    (∀ c, t.response = some (.fault c) → t.msg = s.msg)

/-- R33: the reset state. Byte 13 is free and not spoken of. -/
def Obligations.ResetStateHoldsTheResetValues : Prop :=
  State.reset.byte 0 = 0x02 ∧ State.reset.byte 1 = 0x0E ∧ State.reset.byte 2 = 0x01 ∧ State.reset.byte 3 = 0x00 ∧
  State.reset.byte 4 = 0x01 ∧ State.reset.byte 5 = 0x00 ∧ State.reset.half 6 = 0x0000 ∧ State.reset.half 8 = 0x08F0 ∧
  State.reset.byte 10 = 0x00 ∧ State.reset.byte 11 = 0x00 ∧ State.reset.byte 12 = 0x00 ∧
  State.reset.status.fault = false ∧ State.reset.status.cause = 0 ∧ State.reset.statusOut = 0x00 ∧ State.reset.tx = []

/-- R190: a reset, whatever state it finds, leaves the reset values. Two clauses are the model's choice and no words of
R190: that byte 13 takes the free value drawn at the counter (log entry 1), and that the rest of what the host does
next stays (log entry 2). -/
def Obligations.ResetEventSetsTheResetValues : Prop :=
  ∀ (s : State) (rest : List HostEvent), s.inputs = .reset :: rest →
    ∃ t, step s = .next t ∧
      t.byte 0 = 0x02 ∧ t.byte 1 = 0x0E ∧ t.byte 2 = 0x01 ∧ t.byte 3 = 0x00 ∧ t.byte 4 = 0x01 ∧ t.byte 5 = 0x00 ∧
      t.byte 6 = 0x00 ∧ t.byte 7 = 0x00 ∧ t.byte 8 = 0x08 ∧ t.byte 9 = 0xF0 ∧ t.byte 10 = 0x00 ∧ t.byte 11 = 0x00 ∧
      t.byte 12 = 0x00 ∧ t.byte 13 = Config.resetChk s.draws ∧ t.statusOut = 0x00 ∧ t.tx = [] ∧ t.inputs = rest

/-- R191: every command may be the first after reset, and `FINAL` as the first emits the round-trip message. -/
def Obligations.FinalAfterResetEmitsTheDefaultMessage : Prop :=
  (∀ i : Instr, ∃ t, exec i State.reset = .next t) ∧
  ∃ t, exec .final State.reset = .next t ∧
    t.tx = [#v[0x02, 0x0E, 0x01, 0x00, 0x01, 0x00, 0x00, 0x00, 0x08, 0xF0, 0x00, 0x00, 0x00, 0xF4]]

/-- R25, R33: the invariant holds at reset, whatever the host will do. The draw numbering in its last clause is the
model's choice (log entry 1). -/
def Obligations.InvariantHoldsAtReset : Prop :=
  ∀ es : List HostEvent, Inv (State.reset.withInputs es)

/-- R23, R25, R27, R90, R137: every step keeps the header constants, a legal mode, one of the eight LED fields, a legal
`STATUS`, every record's start marker and checksum, byte 13 as the last record has it, and while `TX` is empty byte 13
as the last reset's draw left it. The numbering of the draws is the model's choice (log entry 1). -/
def Obligations.EveryStepKeepsTheInvariant : Prop :=
  ∀ s t : State, Inv s → step s = .next t → Inv t

/-- R23, R25: what the message register holds in every state a host's script leads to. Before the first `FINAL` byte 13
is the last reset's free value, whichever it is; after it, the checksum the last record carries. The numbering of the
draws is the model's choice (log entry 1). -/
def Obligations.ReachableMessageBytes : Prop :=
  ∀ s : State, Reachable s →
    headerConstant s.msg ∧ modeLegal s.msg ∧ (s.byte 10 = 0x00 ∨ s.byte 10 = 0xF0 ∨ s.byte 10 = 0xF1) ∧
    (s.byte 11 = 0x00 ∨ s.byte 11 = 0x80) ∧ (s.byte 12 = 0x00 ∨ s.byte 12 = 0x80) ∧
    (s.tx = [] → ∃ n, n + 1 = s.draws ∧ s.byte 13 = Config.resetChk n) ∧
    (∀ r, s.tx.getLast? = some r → s.byte 13 = checksum r)

/-- R90: the LED control field takes the eight values of the table, and each of them. -/
def Obligations.LedFieldTakesExactlyTheEightValues : Prop :=
  ∀ x : Byte × Byte × Byte, (∃ s, Reachable s ∧ ledField s.msg = x) ↔ x ∈ ledValues

/-- R47: reading changes nothing, every writing command is idempotent on `MSG`, and `FINAL` twice emits two identical
records. -/
def Obligations.CommandsAreIdempotentOnTheMessage : Prop :=
  (∀ (i : Instr) (s : State), ∃ t u, exec i s = .next t ∧ exec i t = .next u ∧ u.msg = t.msg) ∧
  (∀ (s t : State), exec .chksum s = .next t → t.msg = s.msg ∧ keepsAllButMsg s t) ∧
  (∀ (idx : BitVec 4) (s t : State), idx.toNat < 14 → exec (.rd idx) s = .next t → t.msg = s.msg ∧ keepsAllButMsg s t) ∧
  (∀ s : State, ∃ t u r, exec .final s = .next t ∧ exec .final t = .next u ∧ u.tx = s.tx ++ [r, r])

/-! ### The field packer -/

/-- R80: `INIT`, its word and its only fault. -/
def Obligations.InitWritesTheDefaultMessage : Prop :=
  ∀ s : State,
    (∃ t, exec .init s = .next t ∧
      t.byte 0 = 0x02 ∧ t.byte 1 = 0x0E ∧ t.byte 2 = 0x01 ∧ t.byte 3 = 0x00 ∧ t.byte 4 = 0x01 ∧ t.byte 5 = 0x00 ∧
      t.half 6 = 0x0000 ∧ t.half 8 = 0x08F0 ∧ t.byte 10 = 0x00 ∧ t.byte 11 = 0x00 ∧ t.byte 12 = 0x00 ∧
      t.byte 13 = s.byte 13 ∧ t.response = some .nothing ∧ keepsAllButMsg s t ∧
      ∃ u, exec .init t = .next u ∧ u.msg = t.msg) ∧
    execWord 0x0100000000 s = exec .init s ∧
    ∀ a : Arg, a ≠ 0 → execWord (commandWord 0x01 a) s = .next (s.raiseFault .reservedArg)

/-- R82: `SETMODE`, its words and its faults. -/
def Obligations.SetmodeWritesTheModeAndStampsBlank : Prop :=
  ∀ s : State,
    (∀ mode : BitVec 2, mode ≠ 3 →
      ∃ t, exec (.setmode mode) s = .next t ∧ t.byte 4 = mode.setWidth 8 ∧
        t.byte 10 = (if mode = 0 then 0xF0 else s.byte 10) ∧ (∀ k, k ≠ 4 → k ≠ 10 → t.byte k = s.byte k) ∧
        t.response = some .nothing ∧ keepsAllButMsg s t) ∧
    execWord 0x0200000000 s = exec (.setmode 0) s ∧ execWord 0x0200000001 s = exec (.setmode 1) s ∧
    execWord 0x0200000002 s = exec (.setmode 2) s ∧
    exec (.setmode 3) s = .next (s.raiseFault .badMode) ∧ execWord 0x0200000003 s = .next (s.raiseFault .badMode) ∧
    ∀ a : Arg, a.extractLsb' 2 30 ≠ 0 → execWord (commandWord 0x02 a) s = .next (s.raiseFault .reservedArg)

/-- R83: the Blank stamp overwrites whatever byte 10 held and leaves bytes 11 and 12. -/
def Obligations.BlankStampIsUnconditional : Prop :=
  ∀ s : State,
    (∃ t, exec (.setmode 0) s = .next t ∧ t.byte 10 = 0xF0 ∧ t.byte 11 = s.byte 11 ∧ t.byte 12 = s.byte 12) ∧
    ∃ t u, exec (.setled 1) s = .next t ∧ exec (.setmode 0) t = .next u ∧ t.byte 10 = 0xF1 ∧
      u.byte 10 = 0xF0 ∧ u.byte 11 = 0x80 ∧ u.byte 12 = 0x00

/-- R84: Charge and Speed write byte 4 only, so leaving Blank keeps the stamp; only `SETLED` and `INIT` take it away. -/
def Obligations.LeavingBlankKeepsTheStamp : Prop :=
  (∀ (mode : BitVec 2) (s : State), mode = 1 ∨ mode = 2 →
    ∃ t, exec (.setmode mode) s = .next t ∧ t.byte 4 = mode.setWidth 8 ∧ ∀ k, k ≠ 4 → t.byte k = s.byte k) ∧
  (∀ s : State, ∃ t u, exec (.setmode 0) s = .next t ∧ exec (.setmode 1) t = .next u ∧ u.byte 10 = 0xF0 ∧
    u.byte 4 = 0x01) ∧
  ∀ (i : Instr) (s t : State), exec i s = .next t → s.byte 10 = 0xF0 → t.byte 10 ≠ 0xF0 →
    i = .init ∨ ∃ led, i = .setled led

/-- R86: `SETLED`, its words and its faults. -/
def Obligations.SetledWritesTheLedField : Prop :=
  ∀ s : State,
    (∃ t, exec (.setled 0) s = .next t ∧ t.byte 10 = 0x00 ∧ t.byte 11 = 0x00 ∧ t.byte 12 = 0x00 ∧
      (∀ k, k ≠ 10 → k ≠ 11 → k ≠ 12 → t.byte k = s.byte k) ∧ t.response = some .nothing ∧ keepsAllButMsg s t) ∧
    (∃ t, exec (.setled 1) s = .next t ∧ t.byte 10 = 0xF1 ∧ t.byte 11 = 0x80 ∧ t.byte 12 = 0x00 ∧
      (∀ k, k ≠ 10 → k ≠ 11 → k ≠ 12 → t.byte k = s.byte k) ∧ t.response = some .nothing ∧ keepsAllButMsg s t) ∧
    (∃ t, exec (.setled 2) s = .next t ∧ t.byte 12 = s.byte 12 ||| 0x80 ∧
      (∀ k, k ≠ 12 → t.byte k = s.byte k) ∧ t.response = some .nothing ∧ keepsAllButMsg s t) ∧
    execWord 0x0300000000 s = exec (.setled 0) s ∧ execWord 0x0300000001 s = exec (.setled 1) s ∧
    execWord 0x0300000002 s = exec (.setled 2) s ∧
    exec (.setled 3) s = .next (s.raiseFault .badLed) ∧ execWord 0x0300000003 s = .next (s.raiseFault .badLed) ∧
    ∀ a : Arg, a.extractLsb' 2 30 ≠ 0 → execWord (commandWord 0x03 a) s = .next (s.raiseFault .reservedArg)

/-- R89: what ends blinking and what sets it. -/
def Obligations.BlinkIsAnOverlayEndedByOffOrOn : Prop :=
  (∀ s : State, ∃ t u, exec (.setled 2) s = .next t ∧ exec (.setled 1) t = .next u ∧
    u.byte 10 = 0xF1 ∧ u.byte 11 = 0x80 ∧ u.byte 12 = 0x00) ∧
  (∀ s : State, ∃ t u v, exec (.setled 1) s = .next t ∧ exec (.setled 2) t = .next u ∧ exec (.setled 2) u = .next v ∧
    u.byte 10 = 0xF1 ∧ u.byte 11 = 0x80 ∧ u.byte 12 = 0x80 ∧ v.msg = u.msg) ∧
  (∀ s : State, ∃ t u, exec (.setled 2) s = .next t ∧ exec (.setled 2) t = .next u ∧ u.msg = t.msg) ∧
  (∀ s : State, ∃ t, exec (.setled 0) s = .next t ∧ t.byte 12 = 0x00) ∧
  ∀ (i : Instr) (s t : State), exec i s = .next t → (s.byte 12).getLsbD 7 = true → (t.byte 12).getLsbD 7 = false →
    i = .init ∨ i = .setled 0 ∨ i = .setled 1

/-- R91: `SETBAT` and its word; it never faults. -/
def Obligations.SetbatWritesTheLowHalf : Prop :=
  ∀ (bat : Arg) (s : State),
    (∃ t, exec (.setbat bat) s = .next t ∧ t.half 6 = bat.extractLsb' 0 16 ∧ t.byte 6 = bat.extractLsb' 8 8 ∧
      t.byte 7 = bat.extractLsb' 0 8 ∧ (∀ k, k ≠ 6 → k ≠ 7 → t.byte k = s.byte k) ∧
      t.response = some .nothing ∧ keepsAllButMsg s t) ∧
    execWord (commandWord 0x04 bat) s = exec (.setbat bat) s

/-- R93: whatever integer the host means, bytes 6 and 7 hold it modulo 2^16. -/
def Obligations.BatteryWrapsModuloTwoToSixteen : Prop :=
  (∀ (n : Int) (s : State), ∃ t, exec (.setbat (BitVec.ofInt 32 n)) s = .next t ∧
    ((t.half 6).toNat : Int) = n % 65536) ∧
  ∀ s : State,
    (∃ t, exec (.setbat 65536) s = .next t ∧ t.byte 6 = 0x00 ∧ t.byte 7 = 0x00) ∧
    (∃ t, exec (.setbat 70000) s = .next t ∧ t.byte 6 = 0x11 ∧ t.byte 7 = 0x70) ∧
    (∃ t, exec (.setbat 0xFFFFFFFF) s = .next t ∧ t.byte 6 = 0xFF ∧ t.byte 7 = 0xFF) ∧
    (∃ t, exec (.setbat 0xFFFFFC18) s = .next t ∧ t.byte 6 = 0xFC ∧ t.byte 7 = 0x18)

/-- R196: the order of blanking and of switching the LED on. -/
def Obligations.BlankAfterLedOnLosesTheLedOnFlag : Prop :=
  ∀ s : State,
    (∃ t u, exec (.setled 1) s = .next t ∧ exec (.setmode 0) t = .next u ∧ (t.byte 10).getLsbD 0 = true ∧
      (u.byte 10).getLsbD 0 = false ∧ u.byte 4 = 0x00) ∧
    (∃ t u, exec (.setmode 0) s = .next t ∧ exec (.setled 1) t = .next u ∧ u.byte 4 = 0x00 ∧ u.byte 10 = 0xF1 ∧
      u.byte 11 = 0x80 ∧ u.byte 12 = 0x00) ∧
    ∃ t u, exec (.setled 2) s = .next t ∧ exec (.setmode 0) t = .next u ∧ (u.byte 12).getLsbD 7 = true ∧
      u.byte 10 = 0xF0

/-! ### The speed encoder -/

/-- R117: `SETSPD` of an operand that is no NaN completes, in every mode, and writes bytes 8 and 9 only. -/
def Obligations.SetspdWritesTheSpeedFieldOnly : Prop :=
  ∀ (spd : Arg) (s : State), isNan spd = false →
    ∃ t, exec (.setspd spd) s = .next t ∧ t.half 8 = speedHalf .exactRational .wrap 0 spd ∧
      (∀ k, k ≠ 8 → k ≠ 9 → t.byte k = s.byte k) ∧ t.response = some .nothing ∧ keepsAllButMsg s t

/-- R110: `SETSPD` of a finite operand, in the rational arithmetic of its four steps, under both policies, with every
other byte kept; its NaN fault and its infinity case; its word. That the value under `DRAW` is the free value at the
counter is the model's choice (log entry 3). -/
def Obligations.SpeedEncoderIsTheRationalFormula : Prop :=
  ∀ (spd : Arg) (s : State),
    let e : BitVec 8 := spd.extractLsb' 23 8
    let f : BitVec 23 := spd.extractLsb' 0 23
    let v : Rat := (if spd.getLsbD 31 then -1 else 1) *
      (if e = 0 then (f.toNat : Rat) * (2 : Rat) ^ (-149 : Int)
       else ((2 ^ 23 + f.toNat : Nat) : Rat) * (2 : Rat) ^ ((e.toNat : Int) - 150))
    let k : Int := (v / (1 / 10) + 1 / 2).floor
    let d : Rat := k * (1 / 10) + 1 / 20
    let seq : Int := roundAway (2236 / d)
    (e ≠ 0xFF → ∃ t, exec (.setspd spd) s = .next t ∧ t.half 8 = BitVec.ofInt 16 seq ∧
      t.byte 8 = (BitVec.ofInt 16 seq).extractLsb' 8 8 ∧ t.byte 9 = (BitVec.ofInt 16 seq).extractLsb' 0 8 ∧
      (∀ j, j ≠ 8 → j ≠ 9 → t.byte j = s.byte j) ∧ t.response = some .nothing ∧ keepsAllButMsg s t) ∧
    (e ≠ 0xFF → ∃ t, setspdWith .exactRational .draw spd s = .next t ∧
      (t.half 8 = if k < 0 then Config.speedDraw s.draws else BitVec.ofInt 16 seq) ∧
      ∀ j, j ≠ 8 → j ≠ 9 → t.byte j = s.byte j) ∧
    (e = 0xFF → f ≠ 0 → exec (.setspd spd) s = .next (s.raiseFault .speedNan)) ∧
    (e = 0xFF → f = 0 → ∃ t, exec (.setspd spd) s = .next t ∧ t.half 8 = 0x0000 ∧
      (∀ j, j ≠ 8 → j ≠ 9 → t.byte j = s.byte j) ∧ t.response = some .nothing ∧ keepsAllButMsg s t) ∧
    execWord (commandWord 0x05 spd) s = exec (.setspd spd) s ∧
    ∃ t, exec (.setspd 0) s = .next t ∧ t.byte 8 = 0xAE ∧ t.byte 9 = 0xB0

/-- R111: the integer form of the rule, its divisor never zero, and no quotient a half-integer. -/
def Obligations.SpeedEncoderIntegerForm : Prop :=
  ∀ spd : Arg, f32Exp spd ≠ 0xFF →
    let k : Int := (10 * f32Value spd + 1 / 2).floor
    let n : Int := 2 * k + 1
    n ≠ 0 ∧ (∀ j : Int, (44720 : Rat) / n ≠ j + 1 / 2) ∧
    (0 ≤ f32Pow spd → k = (20 * f32Mant spd * 2 ^ (f32Pow spd).toNat + 1) / 2) ∧
    (f32Pow spd < 0 → k = (20 * f32Mant spd + 2 ^ (-f32Pow spd).toNat) / 2 ^ (1 - f32Pow spd).toNat) ∧
    speedHalf .exactRational .wrap 0 spd =
      trunc16 (if 0 < n then (89440 + n) / (2 * n) else -((89440 - n) / (-2 * n)))

/-- R111: the sequence value is the one integer nearest `44720 / (2k + 1)`, so every way of rounding to the nearest
gives it. -/
def Obligations.SequenceValueIsTheNearestInteger : Prop :=
  ∀ k j : Int, 2 * |44720 - j * (2 * k + 1)| ≤ |2 * k + 1| ↔ j = sequenceOf k

/-- R112: range, extremes, monotonicity and first collision for speeds from -1/20 up. -/
def Obligations.SequenceValueRangeAndMonotonicity : Prop :=
  (∀ spd : Arg, f32Exp spd ≠ 0xFF → -1 / 20 ≤ f32Value spd →
    (speedHalf .exactRational .wrap 0 spd).toNat ≤ 44720 ∧
    (speedHalf .exactRational .wrap 0 spd = 44720 ↔ f32Value spd < 1 / 20) ∧
    (speedHalf .exactRational .wrap 0 spd = 0 ↔ 447195 / 100 ≤ f32Value spd)) ∧
  (∀ spd spd' : Arg, f32Exp spd ≠ 0xFF → f32Exp spd' ≠ 0xFF → -1 / 20 ≤ f32Value spd →
    f32Value spd ≤ f32Value spd' →
    (speedHalf .exactRational .wrap 0 spd').toNat ≤ (speedHalf .exactRational .wrap 0 spd).toNat) ∧
  sequenceOf 161 = 138 ∧ sequenceOf 162 = 138 ∧
  ∀ k k' : Int, 0 ≤ k → k < k' → k' < 162 → sequenceOf k ≠ sequenceOf k'

/-- R112: over all speeds from zero up the encoder gives 300 sequence values, 0 included. -/
def Obligations.ThreeHundredSequenceValues : Prop :=
  ∃ values : List Int, values.Nodup ∧ values.length = 300 ∧ 0 ∈ values ∧
    ∀ j : Int, j ∈ values ↔ ∃ k : Int, 0 ≤ k ∧ sequenceOf k = j

/-- R113: no clamp at the display's maximum of about 97.2: the operands about it write 23, all larger ones write less,
and `SETSPD 1000.0` writes what the rule gives it. -/
def Obligations.SpeedIsNotClamped : Prop :=
  (∀ k : Int, 951 ≤ k → k ≤ 993 → sequenceOf k = 23) ∧
  sequenceOf 994 = 22 ∧
  (∀ (spd : Arg) (s : State), f32Exp spd ≠ 0xFF →
    (9505 / 100 ≤ f32Value spd → f32Value spd < 9935 / 100 →
      ∃ t, exec (.setspd spd) s = .next t ∧ t.half 8 = 23) ∧
    (9935 / 100 ≤ f32Value spd → ∃ t, exec (.setspd spd) s = .next t ∧ (t.half 8).toNat ≤ 22)) ∧
  ∀ s : State,
    (∃ t, exec (.setspd 0x42C26666) s = .next t ∧ t.half 8 = 23) ∧
    ∃ t, exec (.setspd 0x447A0000) s = .next t ∧ t.half 8 = 2

/-- R114: a NaN of either sign and kind faults and writes no byte. -/
def Obligations.NanSpeedFaults : Prop :=
  ∀ (spd : Arg) (s : State), spd.extractLsb' 23 8 = 0xFF → spd.extractLsb' 0 23 ≠ 0 →
    ∃ t, exec (.setspd spd) s = .next t ∧ t.response = some (.fault .speedNan) ∧ t.msg = s.msg ∧ t.tx = s.tx

/-- R115: both infinities write zero, under every parameter. -/
def Obligations.InfiniteSpeedWritesZero : Prop :=
  ∀ (arith : SpeedArith) (policy : SpeedNegPolicy) (spd : Arg) (s : State), spd = 0x7F800000 ∨ spd = 0xFF800000 →
    (∃ t, exec (.setspd spd) s = .next t ∧ t.byte 8 = 0x00 ∧ t.byte 9 = 0x00) ∧
    ∃ t, setspdWith arith policy spd s = .next t ∧ t.byte 8 = 0x00 ∧ t.byte 9 = 0x00

/-- R116: negative operands, under each policy, with the rule's figures. That the value under `DRAW` is the free value
at the counter, and that the counter moves on by one, is the model's choice (log entry 3). -/
def Obligations.NegativeSpeeds : Prop :=
  (∀ (policy : SpeedNegPolicy) (spd : Arg) (s : State), f32Exp spd ≠ 0xFF →
    (-1 / 20 ≤ f32Value spd ∧ f32Value spd < 0 ∨ spd = 0x80000000 →
      ∃ t, setspdWith .exactRational policy spd s = .next t ∧ t.byte 8 = 0xAE ∧ t.byte 9 = 0xB0 ∧
        t.draws = s.draws)) ∧
  (∀ (spd : Arg) (s : State), f32Exp spd ≠ 0xFF → f32Value spd < -1 / 20 →
    (exactSteps spd).1 < 0 ∧ (exactSteps spd).2 ≤ 0 ∧
    (∃ t, exec (.setspd spd) s = .next t ∧ t.half 8 = trunc16 (exactSteps spd).2) ∧
    ∃ t, setspdWith .exactRational .draw spd s = .next t ∧ t.half 8 = Config.speedDraw s.draws ∧
      t.draws = s.draws + 1) ∧
  f32Value 0xBD4CCCCD < -1 / 20 ∧
  exactSteps 0xBD4CCCCD = (-1, -44720) ∧ exactSteps 0xBF800000 = (-10, -2354) ∧ (exactSteps 0xC1CC0000).2 = -88 ∧
  ∀ s : State,
    (∃ t, exec (.setspd 0xBD4CCCCD) s = .next t ∧ t.byte 8 = 0x51 ∧ t.byte 9 = 0x50) ∧
    (∃ t, exec (.setspd 0xBF800000) s = .next t ∧ t.byte 8 = 0xF6 ∧ t.byte 9 = 0xCE) ∧
    (∃ t, exec (.setspd 0xC1CC0000) s = .next t ∧ t.byte 8 = 0xFF ∧ t.byte 9 = 0xA8)

/-- R81: the speed sentinel is no value `SETSPD` produces. -/
def Obligations.SetspdNeverWritesTheSentinel : Prop :=
  (∀ k : Int, sequenceOf k ≠ 2288) ∧ sequenceOf 9 = 0x0932 ∧ sequenceOf 10 = 0x0852 ∧
  ∀ (spd : Arg) (s t : State), isNan spd = false → exec (.setspd spd) s = .next t → t.half 8 ≠ 0x08F0

/-- R116, R117, R118: under every value of the two parameters `SETSPD` completes and writes bytes 8 and 9 only, and at
most one free value is taken, none under `WRAP`. The counter of draws is the model's choice (log entry 3). -/
def Obligations.SetspdCompletesUnderEveryParameter : Prop :=
  ∀ (arith : SpeedArith) (policy : SpeedNegPolicy) (spd : Arg) (s : State), isNan spd = false →
    ∃ t, setspdWith arith policy spd s = .next t ∧ (∀ k, k ≠ 8 → k ≠ 9 → t.byte k = s.byte k) ∧
      t.status = s.status ∧ t.tx = s.tx ∧ t.inputs = s.inputs ∧ t.response = some .nothing ∧
      (policy = .wrap → t.draws = s.draws) ∧ s.draws ≤ t.draws ∧ t.draws ≤ s.draws + 1

/-- R6: no finite binary32 value is nearer to a rational than its rounding, where that is no infinity. -/
def Obligations.RoundingIsToTheNearest : Prop :=
  ∀ (x : Rat) (p : Arg), f32Exp (fl32 x) ≠ 0xFF → f32Exp p ≠ 0xFF → |f32Value (fl32 x) - x| ≤ |f32Value p - x|

/-- R6: `fl32` leaves every binary32 value as it is; the one pattern it does not give back is the negative zero's,
which has the value of zero. -/
def Obligations.RoundingKeepsBinary32Values : Prop :=
  ∀ p : Arg, f32Exp p ≠ 0xFF → p ≠ 0x80000000 → fl32 (f32Value p) = p

/-! ### Checksum and transmission -/

/-- R130: `CHKSUM`, its word and its only fault. -/
def Obligations.ChksumAnswersTheXor : Prop :=
  ∀ s : State,
    (∃ t, exec .chksum s = .next t ∧
      t.response = some (.data (s.byte 0 ^^^ s.byte 1 ^^^ s.byte 2 ^^^ s.byte 3 ^^^ s.byte 4 ^^^ s.byte 5 ^^^ s.byte 6 ^^^
        s.byte 7 ^^^ s.byte 8 ^^^ s.byte 9 ^^^ s.byte 10 ^^^ s.byte 11 ^^^ s.byte 12)) ∧
      t.msg = s.msg ∧ keepsAllButMsg s t) ∧
    execWord 0x0600000000 s = exec .chksum s ∧
    (∀ a : Arg, a ≠ 0 → execWord (commandWord 0x06 a) s = .next (s.raiseFault .reservedArg)) ∧
    ∃ t, exec .chksum State.reset = .next t ∧ t.response = some (.data 0xF4)

/-- R132: changing one byte changes the checksum by the difference, a finalized message has the exclusive-or zero, and
the short form of reachable states. -/
def Obligations.ChecksumIsLinear : Prop :=
  (∀ (m : Message) (i : Fin 14) (b : Byte), i ≠ 13 → checksum (msgSet m i b) = checksum m ^^^ (msgByte m i ^^^ b)) ∧
  (∀ s : State, ∃ t, exec .final s = .next t ∧ checksum t.msg ^^^ t.byte 13 = 0x00) ∧
  ∀ s : State, headerConstant s.msg → checksum s.msg =
    0x0D ^^^ s.byte 4 ^^^ s.byte 6 ^^^ s.byte 7 ^^^ s.byte 8 ^^^ s.byte 9 ^^^ s.byte 10 ^^^ s.byte 11 ^^^ s.byte 12

/-- R130: byte 13 is no input: two states that agree on bytes 0 to 12 answer the same checksum and emit the same
record. -/
def Obligations.StaleByteDoesNotReachTheOutputs : Prop :=
  ∀ s s' : State, (∀ k, k ≠ 13 → s.byte k = s'.byte k) →
    (∃ t t', exec .chksum s = .next t ∧ exec .chksum s' = .next t' ∧ t.response = t'.response) ∧
    ∃ t t' r, exec .final s = .next t ∧ exec .final s' = .next t' ∧ t.tx = s.tx ++ [r] ∧ t'.tx = s'.tx ++ [r] ∧
      t.msg = t'.msg

/-- R133: `CHKSUM` never changes the state, and the `FINAL` after it emits the byte it answered. -/
def Obligations.ChksumForetellsTheEmittedByte : Prop :=
  ∀ s : State, ∃ t u b r, exec .chksum s = .next t ∧ t.response = some (.data b) ∧ t.msg = s.msg ∧ keepsAllButMsg s t ∧
    exec .final t = .next u ∧ u.tx = t.tx ++ [r] ∧ msgByte r 13 = b

/-- R135, R42: `FINAL`, its word and its only fault. -/
def Obligations.FinalStoresTheChecksumAndEmits : Prop :=
  ∀ s : State,
    (∃ t r, exec .final s = .next t ∧ t.byte 13 = checksum s.msg ∧ (∀ k, k ≠ 13 → t.byte k = s.byte k) ∧
      t.tx = s.tx ++ [r] ∧ (∀ k, msgByte r k = t.byte k) ∧
      r.toList = [s.byte 0, s.byte 1, s.byte 2, s.byte 3, s.byte 4, s.byte 5, s.byte 6, s.byte 7, s.byte 8, s.byte 9,
        s.byte 10, s.byte 11, s.byte 12, checksum s.msg] ∧
      t.response = some .nothing ∧ t.status = s.status ∧ t.inputs = s.inputs ∧ t.draws = s.draws) ∧
    execWord 0x0700000000 s = exec .final s ∧
    (∀ a : Arg, a ≠ 0 → ∃ t, execWord (commandWord 0x07 a) s = .next t ∧
      t.response = some (.fault .reservedArg) ∧ t.msg = s.msg ∧ t.tx = s.tx) ∧
    ∃ t, exec .final State.reset = .next t ∧ t.byte 13 = 0xF4 ∧
      t.tx = [#v[0x02, 0x0E, 0x01, 0x00, 0x01, 0x00, 0x00, 0x00, 0x08, 0xF0, 0x00, 0x00, 0x00, 0xF4]]

/-- R136: `FINAL` twice, with a `CHKSUM` or an `RD` between them or not, emits the same record twice. -/
def Obligations.FinalTwiceEmitsTheSameRecord : Prop :=
  ∀ (s : State) (between : Instr), between = .chksum ∨ (∃ idx, between = .rd idx) →
    ∃ t u v w r, exec .final s = .next t ∧ exec between t = .next u ∧ exec .final u = .next v ∧
      v.tx = s.tx ++ [r, r] ∧ v.msg = t.msg ∧ exec .final t = .next w ∧ w.tx = s.tx ++ [r, r] ∧ w.msg = t.msg

/-- R137: every record a host's script brings out has the start marker and its own checksum, and only `FINAL` emits. -/
def Obligations.EveryRecordIsMarkedAndFresh : Prop :=
  (∀ s : State, Reachable s → ∀ r ∈ s.tx, msgByte r 0 = 0x02 ∧
    msgByte r 13 = msgByte r 0 ^^^ msgByte r 1 ^^^ msgByte r 2 ^^^ msgByte r 3 ^^^ msgByte r 4 ^^^ msgByte r 5 ^^^
      msgByte r 6 ^^^ msgByte r 7 ^^^ msgByte r 8 ^^^ msgByte r 9 ^^^ msgByte r 10 ^^^ msgByte r 11 ^^^ msgByte r 12) ∧
  ∀ (i : Instr) (s t : State), exec i s = .next t → t.tx ≠ s.tx → i = .final

/-- R28: the stream is empty after reset and until the next reset only grows, by the record `FINAL` appends. -/
def Obligations.TransmitStreamOnlyGrows : Prop :=
  State.reset.tx = [] ∧
  ∀ s t : State, step s = .next t → (∀ rest, s.inputs ≠ .reset :: rest) →
    t.tx = s.tx ∨ (t.tx = s.tx ++ [t.msg] ∧ ∃ w rest, s.inputs = .command w :: rest ∧ decode w = .ok .final)

/-- R32: what makes the checksum fresh, what can make it stale, and what leaves it; after reset it is fresh only for
one value of the free byte. -/
def Obligations.ChecksumFreshness : Prop :=
  (∀ s t : State, exec .final s = .next t → fresh t.msg) ∧
  (∀ (s t : State) (i : Instr), i = .chksum ∨ (∃ idx, i = .rd idx) → exec i s = .next t →
    (fresh t.msg ↔ fresh s.msg)) ∧
  (∀ i : Instr, i = .setmode 0 ∨ i = .setled 1 ∨ i = .setbat 1 ∨ i = .setspd 0 ∨ i = .init →
    ∃ s t, fresh s.msg ∧ exec i s = .next t ∧ ¬ fresh t.msg) ∧
  (∀ (s t : State) (i : Instr), exec i s = .next t → t.tx ≠ s.tx → ∃ r, t.tx = s.tx ++ [r] ∧ fresh r) ∧
  (fresh State.reset.msg ↔ State.reset.byte 13 = 0xF4)

/-! ### Read-back -/

/-- R150: `RD`, its words and its faults. -/
def Obligations.RdAnswersTheByte : Prop :=
  ∀ (idx : BitVec 4) (s : State),
    (∀ h : idx.toNat < 14, ∃ t, exec (.rd idx) s = .next t ∧
      t.response = some (.data (s.byte ⟨idx.toNat, h⟩)) ∧ t.msg = s.msg ∧ keepsAllButMsg s t ∧
      execWord (commandWord 0x08 (idx.setWidth 32)) s = exec (.rd idx) s) ∧
    (idx = 14 ∨ idx = 15 → exec (.rd idx) s = .next (s.raiseFault .badIndex) ∧
      execWord (commandWord 0x08 (idx.setWidth 32)) s = .next (s.raiseFault .badIndex)) ∧
    (∀ a : Arg, a.extractLsb' 4 28 ≠ 0 → execWord (commandWord 0x08 a) s = .next (s.raiseFault .reservedArg)) ∧
    (∃ t, exec (.rd 4) State.reset = .next t ∧ t.response = some (.data 0x01)) ∧
    ∃ t, exec (.rd 8) State.reset = .next t ∧ t.response = some (.data 0x08)

/-- R41, R43: the 16-bit fields are big-endian, as `RD` shows them after `SETBAT`. -/
def Obligations.BatteryReadsBackBigEndian : Prop :=
  ∀ (bat : Arg) (s : State), ∃ t u v, exec (.setbat bat) s = .next t ∧ exec (.rd 6) t = .next u ∧
    exec (.rd 7) u = .next v ∧ u.response = some (.data (bat.extractLsb' 8 8)) ∧
    v.response = some (.data (bat.extractLsb' 0 8)) ∧ t.half 6 = t.byte 6 ++ t.byte 7

/-! ### The assembler notation -/

/-- R70: the assembler never emits a word the decoder refuses. -/
def Obligations.AssemblerEmitsOnlyCommands : Prop :=
  ∀ (line : List Char) (words : List CmdWord), assembleWords line = some words →
    ∀ w ∈ words, ∃ i, decode w = .ok i

/-- R72: the spelling of a word is the two hexadecimal digits of `OP`, an underscore and the eight of `ARG`, the most
significant first; so it determines the word. -/
def Obligations.SpellingDeterminesTheWord : Prop :=
  (∀ w : CmdWord, (spellWord w).length = 11 ∧ (spellWord w)[2]? = some '_' ∧
    (∀ k, k < 2 → (spellWord w)[k]? = "0123456789ABCDEF".toList[(opField w).toNat / 16 ^ (1 - k) % 16]?) ∧
    ∀ k, k < 8 → (spellWord w)[3 + k]? = "0123456789ABCDEF".toList[(argField w).toNat / 16 ^ (7 - k) % 16]?) ∧
  ∀ w w' : CmdWord, spellWord w = spellWord w' → w = w'
end

