-- ==== Sys2Proof/Laws/Message.lean ====
section
/-! SUPPORT. What writing a byte or a 16-bit field does to every byte of a message, and the bytes of the default
message. -/

namespace Sys2Proof.Machine

@[simp] theorem msgByte_msgSet (m : Message) (i j : Fin 14) (v : Byte) :
    msgByte (msgSet m i v) j = if i = j then v else msgByte m j := by
  simp only [msgByte, msgSet, Vector.getElem_set, Fin.ext_iff]

@[simp] theorem msgByte_msgSetHalf (m : Message) (i : Fin 13) (j : Fin 14) (v : Half) :
    msgByte (msgSetHalf m i v) j =
      if i.succ = j then v.extractLsb' 0 8 else if i.castSucc = j then v.extractLsb' 8 8 else msgByte m j := by
  simp only [msgSetHalf, msgByte_msgSet]

/-- A 16-bit field reads back as it was written (R41). -/
@[simp] theorem msgHalf_msgSetHalf_same (m : Message) (i : Fin 13) (v : Half) :
    msgHalf (msgSetHalf m i v) i = v := by
  have h : i.succ ≠ i.castSucc := by simp [Fin.ext_iff]
  simp only [msgHalf, msgByte_msgSetHalf, if_neg h, if_true]
  exact append_extract (n := 8) (m := 8) v

/-- Messages with the same bytes are the same. -/
theorem message_ext {m n : Message} (h : ∀ i : Fin 14, msgByte m i = msgByte n i) : m = n :=
  Vector.ext fun i hi => h ⟨i, hi⟩

section
variable (c : Byte)

@[simp] theorem msgByte_defaultMessage_0 : msgByte (defaultMessage c) 0 = 0x02 := rfl
@[simp] theorem msgByte_defaultMessage_1 : msgByte (defaultMessage c) 1 = 0x0E := rfl
@[simp] theorem msgByte_defaultMessage_2 : msgByte (defaultMessage c) 2 = 0x01 := rfl
@[simp] theorem msgByte_defaultMessage_3 : msgByte (defaultMessage c) 3 = 0x00 := rfl
@[simp] theorem msgByte_defaultMessage_4 : msgByte (defaultMessage c) 4 = 0x01 := rfl
@[simp] theorem msgByte_defaultMessage_5 : msgByte (defaultMessage c) 5 = 0x00 := rfl
@[simp] theorem msgByte_defaultMessage_6 : msgByte (defaultMessage c) 6 = 0x00 := rfl
@[simp] theorem msgByte_defaultMessage_7 : msgByte (defaultMessage c) 7 = 0x00 := rfl
@[simp] theorem msgByte_defaultMessage_8 : msgByte (defaultMessage c) 8 = 0x08 := rfl
@[simp] theorem msgByte_defaultMessage_9 : msgByte (defaultMessage c) 9 = 0xF0 := rfl
@[simp] theorem msgByte_defaultMessage_10 : msgByte (defaultMessage c) 10 = 0x00 := rfl
@[simp] theorem msgByte_defaultMessage_11 : msgByte (defaultMessage c) 11 = 0x00 := rfl
@[simp] theorem msgByte_defaultMessage_12 : msgByte (defaultMessage c) 12 = 0x00 := rfl
@[simp] theorem msgByte_defaultMessage_13 : msgByte (defaultMessage c) 13 = c := rfl

/-- The default battery field (R80). -/
@[simp] theorem msgHalf_defaultMessage_6 : msgHalf (defaultMessage c) 6 = 0x0000 := by
  simp [msgHalf]

/-- The speed sentinel (R80). -/
@[simp] theorem msgHalf_defaultMessage_8 : msgHalf (defaultMessage c) 8 = 0x08F0 := by
  simp [msgHalf]

end

/-- Byte 13 is no input of the checksum (R130). -/
@[simp] theorem checksum_msgSet_13 (m : Message) (v : Byte) : checksum (msgSet m 13 v) = checksum m := by
  simp [checksum]

end Sys2Proof.Machine
end

