-- ==== Sys2Proof/Laws/State.lean ====
section
/-! SUPPORT. One lemma per field per update of State. -/

namespace Sys2Proof.Machine

section
variable (s : State) (m : Message)

@[simp] theorem State.withMsg_msg : (s.withMsg m).msg = m := rfl
@[simp] theorem State.withMsg_status : (s.withMsg m).status = s.status := rfl
@[simp] theorem State.withMsg_tx : (s.withMsg m).tx = s.tx := rfl
@[simp] theorem State.withMsg_response : (s.withMsg m).response = s.response := rfl
@[simp] theorem State.withMsg_inputs : (s.withMsg m).inputs = s.inputs := rfl
@[simp] theorem State.withMsg_draws : (s.withMsg m).draws = s.draws := rfl

end

section
variable (s : State) (i : Fin 14) (v : Byte)

@[simp] theorem State.setByte_msg : (s.setByte i v).msg = msgSet s.msg i v := rfl
@[simp] theorem State.setByte_status : (s.setByte i v).status = s.status := rfl
@[simp] theorem State.setByte_tx : (s.setByte i v).tx = s.tx := rfl
@[simp] theorem State.setByte_response : (s.setByte i v).response = s.response := rfl
@[simp] theorem State.setByte_inputs : (s.setByte i v).inputs = s.inputs := rfl
@[simp] theorem State.setByte_draws : (s.setByte i v).draws = s.draws := rfl

end

section
variable (s : State) (i : Fin 13) (v : Half)

@[simp] theorem State.setHalf_msg : (s.setHalf i v).msg = msgSetHalf s.msg i v := rfl
@[simp] theorem State.setHalf_status : (s.setHalf i v).status = s.status := rfl
@[simp] theorem State.setHalf_tx : (s.setHalf i v).tx = s.tx := rfl
@[simp] theorem State.setHalf_response : (s.setHalf i v).response = s.response := rfl
@[simp] theorem State.setHalf_inputs : (s.setHalf i v).inputs = s.inputs := rfl
@[simp] theorem State.setHalf_draws : (s.setHalf i v).draws = s.draws := rfl

end

section
variable (s : State) (r : Response)

@[simp] theorem State.respond_msg : (s.respond r).msg = s.msg := rfl
@[simp] theorem State.respond_status : (s.respond r).status = s.status := rfl
@[simp] theorem State.respond_tx : (s.respond r).tx = s.tx := rfl
@[simp] theorem State.respond_response : (s.respond r).response = some r := rfl
@[simp] theorem State.respond_inputs : (s.respond r).inputs = s.inputs := rfl
@[simp] theorem State.respond_draws : (s.respond r).draws = s.draws := rfl

end

section
variable (s : State)

@[simp] theorem State.emit_msg : s.emit.msg = s.msg := rfl
@[simp] theorem State.emit_status : s.emit.status = s.status := rfl
@[simp] theorem State.emit_tx : s.emit.tx = s.tx ++ [s.msg] := rfl
@[simp] theorem State.emit_response : s.emit.response = s.response := rfl
@[simp] theorem State.emit_inputs : s.emit.inputs = s.inputs := rfl
@[simp] theorem State.emit_draws : s.emit.draws = s.draws := rfl

end

section
variable (s : State) (n : Nat)

@[simp] theorem State.countDraws_msg : (s.countDraws n).msg = s.msg := rfl
@[simp] theorem State.countDraws_status : (s.countDraws n).status = s.status := rfl
@[simp] theorem State.countDraws_tx : (s.countDraws n).tx = s.tx := rfl
@[simp] theorem State.countDraws_response : (s.countDraws n).response = s.response := rfl
@[simp] theorem State.countDraws_inputs : (s.countDraws n).inputs = s.inputs := rfl
@[simp] theorem State.countDraws_draws : (s.countDraws n).draws = s.draws + n := rfl

end

section
variable (s : State) (c : Cause)

@[simp] theorem State.raiseFault_msg : (s.raiseFault c).msg = s.msg := rfl
@[simp] theorem State.raiseFault_status : (s.raiseFault c).status = s.status.afterFault c := rfl
@[simp] theorem State.raiseFault_tx : (s.raiseFault c).tx = s.tx := rfl
@[simp] theorem State.raiseFault_response : (s.raiseFault c).response = some (.fault c) := rfl
@[simp] theorem State.raiseFault_inputs : (s.raiseFault c).inputs = s.inputs := rfl
@[simp] theorem State.raiseFault_draws : (s.raiseFault c).draws = s.draws := rfl

end

section
variable (s : State)

@[simp] theorem State.applyReset_msg : s.applyReset.msg = defaultMessage (Config.resetChk s.draws) := rfl
@[simp] theorem State.applyReset_status : s.applyReset.status = { fault := false, cause := 0 } := rfl
@[simp] theorem State.applyReset_tx : s.applyReset.tx = [] := rfl
@[simp] theorem State.applyReset_response : s.applyReset.response = none := rfl
@[simp] theorem State.applyReset_inputs : s.applyReset.inputs = s.inputs := rfl
@[simp] theorem State.applyReset_draws : s.applyReset.draws = s.draws + 1 := rfl

end

section
variable (s : State) (w : CmdWord)

@[simp] theorem State.present_msg : (s.present w).msg = s.msg := rfl
@[simp] theorem State.present_status : (s.present w).status = s.status := rfl
@[simp] theorem State.present_tx : (s.present w).tx = s.tx := rfl
@[simp] theorem State.present_response : (s.present w).response = s.response := rfl
@[simp] theorem State.present_inputs : (s.present w).inputs = .command w :: s.inputs := rfl
@[simp] theorem State.present_draws : (s.present w).draws = s.draws := rfl

end

section
variable (s : State) (es : List HostEvent)

@[simp] theorem State.withInputs_msg : (s.withInputs es).msg = s.msg := rfl
@[simp] theorem State.withInputs_status : (s.withInputs es).status = s.status := rfl
@[simp] theorem State.withInputs_tx : (s.withInputs es).tx = s.tx := rfl
@[simp] theorem State.withInputs_response : (s.withInputs es).response = s.response := rfl
@[simp] theorem State.withInputs_inputs : (s.withInputs es).inputs = es := rfl
@[simp] theorem State.withInputs_draws : (s.withInputs es).draws = s.draws := rfl

end

/-- The one spelling of a byte read in proofs: the byte of the message register. -/
@[simp] theorem State.byte_eq (s : State) (i : Fin 14) : s.byte i = msgByte s.msg i := rfl

/-- The one spelling of a 16-bit read in proofs. -/
@[simp] theorem State.half_eq (s : State) (i : Fin 13) : s.half i = msgHalf s.msg i := rfl

@[simp] theorem StatusReg.afterFault_fault (r : StatusReg) (c : Cause) : (r.afterFault c).fault = true := rfl
theorem StatusReg.afterFault_cause (r : StatusReg) (c : Cause) :
    (r.afterFault c).cause = if r.fault then r.cause else c.code := rfl

/-- A later fault leaves `STATUS` as the first one made it (R165). -/
theorem StatusReg.afterFault_of_fault {r : StatusReg} (h : r.fault = true) (c : Cause) : r.afterFault c = r := by
  cases r
  simp_all [StatusReg.afterFault]

theorem StatusReg.afterFault_of_noFault {r : StatusReg} (h : r.fault = false) (c : Cause) :
    r.afterFault c = { fault := true, cause := c.code } := by
  simp [StatusReg.afterFault, h]

/-- The codes of R160 are 1 to 6. -/
theorem cause_code_range (c : Cause) : 1 ≤ c.code.toNat ∧ c.code.toNat ≤ 6 := by
  cases c <;> decide

/-- A fault keeps `STATUS` legal (R27, R161). -/
theorem statusLegal_afterFault {r : StatusReg} (h : statusLegal r) (c : Cause) : statusLegal (r.afterFault c) := by
  cases hf : r.fault with
  | false =>
    rw [StatusReg.afterFault_of_noFault hf]
    exact .inr ⟨rfl, cause_code_range c⟩
  | true =>
    rw [StatusReg.afterFault_of_fault hf]
    exact h

end Sys2Proof.Machine
end

