-- ==== Sys2Proof/Laws/Exec.lean ====
section
/-! SUPPORT. What each meaning answers, case by case: the lemmas that proofs about commands cite instead of unfolding
the meanings. -/

namespace Sys2Proof.Machine

theorem exec_init (s : State) :
    exec .init s = .next ((s.withMsg (defaultMessage (s.byte 13))).respond .nothing) := rfl

theorem exec_setmode_bad (s : State) : exec (.setmode 3) s = .next (s.raiseFault .badMode) := rfl

theorem exec_setmode_blank (s : State) :
    exec (.setmode 0) s = .next (((s.setByte 4 0).setByte 10 0xF0).respond .nothing) := rfl

theorem exec_setmode_charge (s : State) : exec (.setmode 1) s = .next ((s.setByte 4 1).respond .nothing) := rfl

theorem exec_setmode_speed (s : State) : exec (.setmode 2) s = .next ((s.setByte 4 2).respond .nothing) := rfl

theorem exec_setled_off (s : State) :
    exec (.setled 0) s = .next ((((s.setByte 10 0x00).setByte 11 0x00).setByte 12 0x00).respond .nothing) := rfl

theorem exec_setled_on (s : State) :
    exec (.setled 1) s = .next ((((s.setByte 10 0xF1).setByte 11 0x80).setByte 12 0x00).respond .nothing) := rfl

theorem exec_setled_blink (s : State) :
    exec (.setled 2) s = .next ((s.setByte 12 (s.byte 12 ||| 0x80)).respond .nothing) := rfl

theorem exec_setled_bad (s : State) : exec (.setled 3) s = .next (s.raiseFault .badLed) := rfl

theorem exec_setbat (bat : Arg) (s : State) :
    exec (.setbat bat) s = .next ((s.setHalf 6 (trunc16 bat.toInt)).respond .nothing) := rfl

theorem exec_setspd_nan {spd : Arg} (h : isNan spd = true) (s : State) :
    exec (.setspd spd) s = .next (s.raiseFault .speedNan) := by
  simp [exec, execSetspd, setspdWith, h]

/-- Under `WRAP` no free value is drawn (R116). -/
theorem speedDraws_wrap (arith : SpeedArith) (spd : Arg) : speedDraws arith .wrap spd = 0 := by
  unfold speedDraws
  split <;> simp

/-- Under `WRAP` the free value makes no difference (R116). -/
theorem speedHalf_wrap (arith : SpeedArith) (draw : Half) (spd : Arg) :
    speedHalf arith .wrap draw spd = speedHalf arith .wrap 0 spd := by
  unfold speedHalf
  split <;> simp

theorem exec_setspd {spd : Arg} (h : isNan spd = false) (s : State) :
    exec (.setspd spd) s =
      .next ((s.setHalf 8 (speedHalf .exactRational .wrap 0 spd)).respond .nothing) := by
  simp only [exec, execSetspd, setspdWith, h, Config.speedArith, Config.speedNegPolicy, speedDraws_wrap,
    speedHalf_wrap _ (Config.speedDraw s.draws)]
  rfl

theorem exec_chksum (s : State) : exec .chksum s = .next (s.respond (.data (checksum s.msg))) := rfl

theorem exec_final (s : State) :
    exec .final s = .next (((s.setByte 13 (checksum s.msg)).emit).respond .nothing) := rfl

theorem exec_rd {idx : BitVec 4} (h : idx.toNat < 14) (s : State) :
    exec (.rd idx) s = .next (s.respond (.data (s.byte ⟨idx.toNat, h⟩))) := by
  simp [exec, execRd, h]

theorem exec_rd_bad {idx : BitVec 4} (h : 14 ≤ idx.toNat) (s : State) :
    exec (.rd idx) s = .next (s.raiseFault .badIndex) := by
  simp [exec, execRd, Nat.not_lt.mpr h]

/-- Every 2-bit code is one of the four (R63). -/
theorem code_cases (x : BitVec 2) : x = 0 ∨ x = 1 ∨ x = 2 ∨ x = 3 := by
  revert x
  decide

/-- Everything a command can do: its own effect, with the operand it takes that effect on, or the fault of its
operand. -/
theorem exec_cases {i : Instr} {s t : State} (h : exec i s = .next t) :
    (i = .init ∧ t = (s.withMsg (defaultMessage (s.byte 13))).respond .nothing) ∨
    (i = .setmode 0 ∧ t = ((s.setByte 4 0).setByte 10 0xF0).respond .nothing) ∨
    (i = .setmode 1 ∧ t = (s.setByte 4 1).respond .nothing) ∨
    (i = .setmode 2 ∧ t = (s.setByte 4 2).respond .nothing) ∨
    (i = .setled 0 ∧ t = (((s.setByte 10 0x00).setByte 11 0x00).setByte 12 0x00).respond .nothing) ∨
    (i = .setled 1 ∧ t = (((s.setByte 10 0xF1).setByte 11 0x80).setByte 12 0x00).respond .nothing) ∨
    (i = .setled 2 ∧ t = (s.setByte 12 (s.byte 12 ||| 0x80)).respond .nothing) ∨
    (∃ bat, i = .setbat bat ∧ t = (s.setHalf 6 (trunc16 bat.toInt)).respond .nothing) ∨
    (∃ spd, i = .setspd spd ∧ isNan spd = false ∧
      t = (s.setHalf 8 (speedHalf .exactRational .wrap 0 spd)).respond .nothing) ∨
    (i = .chksum ∧ t = s.respond (.data (checksum s.msg))) ∨
    (i = .final ∧ t = ((s.setByte 13 (checksum s.msg)).emit).respond .nothing) ∨
    (∃ (idx : BitVec 4) (hidx : idx.toNat < 14), i = .rd idx ∧ t = s.respond (.data (s.byte ⟨idx.toNat, hidx⟩))) ∨
    (∃ c, t = s.raiseFault c ∧
      ((i = .setmode 3 ∧ c = .badMode) ∨ (i = .setled 3 ∧ c = .badLed) ∨
        (∃ idx, i = .rd idx ∧ 14 ≤ idx.toNat ∧ c = .badIndex) ∨
        (∃ spd, i = .setspd spd ∧ isNan spd = true ∧ c = .speedNan))) := by
  cases i with
  | init => cases h; simp
  | setmode mode =>
    obtain rfl | rfl | rfl | rfl := code_cases mode <;> cases h <;> simp
  | setled led =>
    obtain rfl | rfl | rfl | rfl := code_cases led <;> cases h <;> simp
  | setbat bat => cases h; simp
  | setspd spd =>
    cases hn : isNan spd with
    | false =>
      rw [exec_setspd hn] at h
      cases h
      simp [hn]
    | true =>
      rw [exec_setspd_nan hn] at h
      cases h
      simp [hn]
  | chksum => cases h; simp
  | final => cases h; simp
  | rd idx =>
    by_cases hi : idx.toNat < 14
    · rw [exec_rd hi] at h
      cases h
      simp [hi]
    · have hi := Nat.le_of_not_lt hi
      rw [exec_rd_bad hi] at h
      cases h
      simp [hi]

end Sys2Proof.Machine
end

