-- ==== Sys2Proof/Laws/PerInstr.lean ====
section
/-! SUPPORT. What holds of every command as syntax, one lemma per constructor: the fields of its word are its opcode
and its argument, and the opcode is one of the map's (R60, R64). -/

namespace Sys2Proof

@[simp] theorem opField_commandWord (op : BitVec 8) (arg : Arg) : opField (commandWord op arg) = op :=
  extract_append_high op arg

@[simp] theorem argField_commandWord (op : BitVec 8) (arg : Arg) : argField (commandWord op arg) = arg :=
  extract_append_low op arg

/-- A word is put together from its own fields (R60). -/
theorem commandWord_fields (w : CmdWord) : commandWord (opField w) (argField w) = w :=
  append_extract (n := 8) (m := 32) w

namespace Laws.WordFields

/-- The word's fields are the command's opcode, which the opcode map names, and its argument. -/
def Statement (i : Instr) : Prop :=
  opField (encode i) = i.opcode ∧ argField (encode i) = i.argument ∧ 1 ≤ i.opcode.toNat ∧ i.opcode.toNat ≤ 8

theorem init : Statement .init := by simp [Statement, encode, Instr.opcode]
theorem setmode (mode : BitVec 2) : Statement (.setmode mode) := by simp [Statement, encode, Instr.opcode]
theorem setled (led : BitVec 2) : Statement (.setled led) := by simp [Statement, encode, Instr.opcode]
theorem setbat (bat : Arg) : Statement (.setbat bat) := by simp [Statement, encode, Instr.opcode]
theorem setspd (spd : Arg) : Statement (.setspd spd) := by simp [Statement, encode, Instr.opcode]
theorem chksum : Statement .chksum := by simp [Statement, encode, Instr.opcode]
theorem final : Statement .final := by simp [Statement, encode, Instr.opcode]
theorem rd (idx : BitVec 4) : Statement (.rd idx) := by simp [Statement, encode, Instr.opcode]

end Laws.WordFields

end Sys2Proof
end

