-- ==== Sys2Proof/Laws/Speed.lean ====
section
/-! SUPPORT. The sequence value as a function of the quantized speed: its two branches, and where it is positive. -/

namespace Sys2Proof.Machine

theorem sequenceOf_of_nonneg {k : Int} (h : 0 ≤ k) :
    sequenceOf k = (89440 + (2 * k + 1)) / (2 * (2 * k + 1)) := by
  simp [sequenceOf, show 0 < 2 * k + 1 by omega]

theorem sequenceOf_of_neg {k : Int} (h : k < 0) :
    sequenceOf k = -((89440 - (2 * k + 1)) / (-2 * (2 * k + 1))) := by
  simp [sequenceOf, show ¬ 0 < 2 * k + 1 by omega]

/-- The divisor of step 3 is odd (R111). -/
theorem divisor_ne_zero (k : Int) : 2 * k + 1 ≠ 0 := by omega

theorem speedSteps_of_isInf {spd : Arg} (h : isInf spd = true) (arith : SpeedArith) : speedSteps arith spd = none := by
  simp [speedSteps, h]

theorem speedSteps_exact {spd : Arg} (h : isInf spd = false) :
    speedSteps .exactRational spd = some (exactSteps spd) := by
  simp [speedSteps, h]

/-- An operand whose exponent field is not all ones is no NaN and no infinity (R110). -/
theorem not_isNan_of_finite {spd : Arg} (h : f32Exp spd ≠ 0xFF) : isNan spd = false := by
  simp only [isNan, Bool.and_eq_false_imp, beq_iff_eq]
  exact fun he => absurd he h

theorem not_isInf_of_finite {spd : Arg} (h : f32Exp spd ≠ 0xFF) : isInf spd = false := by
  simp only [isInf, Bool.and_eq_false_imp, beq_iff_eq]
  exact fun he => absurd he h

end Sys2Proof.Machine
end

