-- ==== Sys2Proof/Laws/Step.lean ====
section
/-! SUPPORT. What a step does, by what stands on the command port. -/

namespace Sys2Proof.Machine

theorem step_idle {s : State} (h : s.inputs = []) : step s = .next s := by
  simp [step, takeEvent, h]

theorem step_reset {s : State} {es : List HostEvent} (h : s.inputs = .reset :: es) :
    step s = .next (s.withInputs es).applyReset := by
  simp only [step, takeEvent, h]
  rfl

theorem step_command {s : State} {w : CmdWord} {es : List HostEvent} (h : s.inputs = .command w :: es) :
    step s = execWord w (s.withInputs es) := by
  simp only [step, takeEvent, h]
  rfl

theorem execWord_ok {w : CmdWord} {i : Instr} (h : decode w = .ok i) (s : State) : execWord w s = exec i s := by
  simp [execWord, h]

theorem execWord_refused {w : CmdWord} {c : Cause} (h : decode w = .refused c) (s : State) :
    execWord w s = .next (s.raiseFault c) := by
  simp [execWord, h]

/-- Everything a step can do: idle, reset, run a decoded command, or take a fault of the word. -/
theorem step_cases {s t : State} (h : step s = .next t) :
    (s.inputs = [] ∧ t = s) ∨
    (∃ es, s.inputs = .reset :: es ∧ t = (s.withInputs es).applyReset) ∨
    (∃ w es i, s.inputs = .command w :: es ∧ decode w = .ok i ∧ exec i (s.withInputs es) = .next t) ∨
    (∃ w es c, s.inputs = .command w :: es ∧ decode w = .refused c ∧ t = (s.withInputs es).raiseFault c) := by
  match hin : s.inputs with
  | [] =>
    rw [step_idle hin] at h
    cases h
    simp
  | .reset :: es =>
    rw [step_reset hin] at h
    cases h
    simp
  | .command w :: es =>
    rw [step_command hin] at h
    cases hd : decode w with
    | ok i =>
      rw [execWord_ok hd] at h
      exact .inr (.inr (.inl ⟨w, es, i, rfl, hd, h⟩))
    | refused c =>
      rw [execWord_refused hd] at h
      cases h
      exact .inr (.inr (.inr ⟨w, es, c, rfl, hd, rfl⟩))

/-- The next step of a state with a row's word on the command port runs the command that word decodes to. -/
theorem step_withFetchWord {nbits w : Nat} {i : Instr} (h : decodeTableWord nbits w = some i) (s : State) :
    step (s.withFetchWord nbits w) = exec i s := by
  have hd : decode (tableWord nbits w) = .ok i := by
    unfold decodeTableWord at h
    split at h <;> simp_all
  rw [step_command (w := tableWord nbits w) (es := s.inputs) rfl, execWord_ok hd]
  rfl

end Sys2Proof.Machine
end

