-- ==== Sys2Proof/Tests/Slice0.lean ====
section
/-! SUPPORT. The model's own tests: decoding of words written out from the spec's encodings, the spec's vectors
(95_test_vectors.md) one step at a time, ill-formed commands, and a witness for the hypotheses of every statement. -/

namespace Sys2Proof.Machine.Tests

/-! ### Encoding: words written out from R60, R62, R64 -/

theorem test_init_word : decode 0b0000000100000000000000000000000000000000 = .ok .init := by decide
theorem test_setmode_word : decode 0b0000001000000000000000000000000000000010 = .ok (.setmode 2) := by decide
theorem test_setled_word : decode 0b0000001100000000000000000000000000000001 = .ok (.setled 1) := by decide
theorem test_setbat_word : decode 0b0000010000010010001101000101011001111000 = .ok (.setbat 0x12345678) := by decide
theorem test_setspd_word : decode 0b0000010101000001110011000000000000000000 = .ok (.setspd 0x41CC0000) := by decide
theorem test_chksum_word : decode 0b0000011000000000000000000000000000000000 = .ok .chksum := by decide
theorem test_final_word : decode 0b0000011100000000000000000000000000000000 = .ok .final := by decide
theorem test_rd_word : decode 0b0000100000000000000000000000000000001101 = .ok (.rd 13) := by decide

/-- Rows of V9: the decoder's refusals and their priority. -/
theorem test_refused_words :
    decode 0x0000000000 = .refused .illegalOpcode ∧ decode 0x0900000000 = .refused .illegalOpcode ∧
    decode 0xFFFFFFFFFF = .refused .illegalOpcode ∧ decode 0x0100000001 = .refused .reservedArg ∧
    decode 0x0200000003 = .refused .badMode ∧ decode 0x0200000007 = .refused .reservedArg ∧
    decode 0x0300000003 = .refused .badLed ∧ decode 0x0380000001 = .refused .reservedArg ∧
    decode 0x080000000E = .refused .badIndex ∧ decode 0x080000001D = .refused .reservedArg := by decide

theorem test_table_words :
    decodeTableWord 40 0x0100000000 = some .init ∧ decodeTableWord 40 0x0400000001 = some (.setbat 1) ∧
    decodeTableWord 40 0x0000000000 = none := by decide

/-! ### Ill-formed commands -/

theorem test_setmode_ill_formed : (Instr.setmode 3).wf = false ∧ (Instr.setmode 2).wf = true := by decide
theorem test_setled_ill_formed : (Instr.setled 3).wf = false ∧ (Instr.setled 2).wf = true := by decide
theorem test_rd_ill_formed : (Instr.rd 14).wf = false ∧ (Instr.rd 15).wf = false ∧ (Instr.rd 13).wf = true := by decide

/-! ### One step each, on a small state -/

/-- The default message with `0x5A` in byte 13, no fault recorded, nothing emitted. -/
def start : State :=
  { msg := defaultMessage 0x5A, status := { fault := false, cause := 0 }, tx := [], response := none, inputs := [],
    draws := 0 }

/-- The same after `SETLED ON`. -/
def startLedOn : State := { start with msg := #v[2, 14, 1, 0, 1, 0, 0, 0, 8, 0xF0, 0xF1, 0x80, 0, 0x5A] }

/-- The same with a `BAD_MODE` fault recorded. -/
def startFaulted : State := { start with status := { fault := true, cause := 3 } }

/-- The state the next step answers (the state itself if the step stopped). -/
def afterStep (s : State) : State :=
  match step s with
  | .next t => t
  | _ => s

/-- The state the next step answers after a word is presented. -/
def afterWord (w : CmdWord) (s : State) : State := afterStep (s.present w)

/-- V1: byte 13 and a recorded fault are kept. -/
theorem test_init :
    (afterWord 0x0100000000 { startFaulted with msg := startLedOn.msg }).msg = start.msg ∧
    (afterWord 0x0100000000 startFaulted).statusOut = 0x83 := by decide

/-- V2, E6: blank after LED on. -/
theorem test_setmode_blank :
    (afterWord 0x0200000000 startLedOn).msg = #v[2, 14, 1, 0, 0, 0, 0, 0, 8, 0xF0, 0xF0, 0x80, 0, 0x5A] := by decide

/-- V2: Speed writes byte 4 only. -/
theorem test_setmode_speed :
    (afterWord 0x0200000002 startLedOn).msg = #v[2, 14, 1, 0, 2, 0, 0, 0, 8, 0xF0, 0xF1, 0x80, 0, 0x5A] := by decide

/-- V3: LED on from reset, blink over it. -/
theorem test_setled_on_blink :
    (afterWord 0x0300000001 start).msg = startLedOn.msg ∧
    (afterWord 0x0300000002 startLedOn).msg = #v[2, 14, 1, 0, 1, 0, 0, 0, 8, 0xF0, 0xF1, 0x80, 0x80, 0x5A] := by decide

/-- V3: off. -/
theorem test_setled_off : (afterWord 0x0300000000 startLedOn).msg = start.msg := by decide

/-- V4: big-endian, and the wrap of 70000 and of -1000. -/
theorem test_setbat :
    (afterWord 0x04000003E7 start).msg = #v[2, 14, 1, 0, 1, 0, 3, 0xE7, 8, 0xF0, 0, 0, 0, 0x5A] ∧
    (afterWord 0x0400011170 start).half 6 = 0x1170 ∧ (afterWord 0x04FFFFFC18 start).half 6 = 0xFC18 := by decide

/-- V5: zero, a subnormal, the operand below the first boundary and the one above it, 25.5, 97.2, the largest finite. -/
theorem test_setspd_positive :
    (afterWord 0x0500000000 start).msg = #v[2, 14, 1, 0, 1, 0, 0, 0, 0xAE, 0xB0, 0, 0, 0, 0x5A] ∧
    (afterWord 0x0500000001 start).half 8 = 0xAEB0 ∧ (afterWord 0x053D4CCCCC start).half 8 = 0xAEB0 ∧
    (afterWord 0x053D4CCCCD start).half 8 = 0x3A3B ∧ (afterWord 0x0541CC0000 start).half 8 = 0x0058 ∧
    (afterWord 0x0542C26666 start).half 8 = 0x0017 ∧ (afterWord 0x057F7FFFFF start).half 8 = 0x0000 := by decide

/-- V5: negative operands, both infinities, and the NaNs. -/
theorem test_setspd_corners :
    (afterWord 0x05BD4CCCCD start).half 8 = 0x5150 ∧ (afterWord 0x05BF800000 start).half 8 = 0xF6CE ∧
    (afterWord 0x05C1CC0000 start).half 8 = 0xFFA8 ∧ (afterWord 0x05FF800000 start).half 8 = 0x0000 ∧
    (afterWord 0x057FC00000 start).response = some (.fault .speedNan) ∧ (afterWord 0x057F800001 start).statusOut = 0x86 := by
  decide

/-- V5, column F32: what the binary32 pipeline gives instead. -/
theorem test_f32_pipeline :
    speedHalf .f32Pipeline .wrap 0 0x3D4CCCCC = 0x3A3B ∧ speedHalf .f32Pipeline .wrap 0 0x3F733333 = 0x0852 ∧
    speedHalf .f32Pipeline .wrap 0 0x40BB3333 = 0x0178 ∧ speedHalf .f32Pipeline .wrap 0 0xBD4CCCCD = 0xAEB0 ∧
    speedHalf .f32Pipeline .wrap 0 0x7F7FFFFF = 0x0000 ∧ speedHalf .f32Pipeline .wrap 0 0xC1CC0000 = 0xFFA8 := by
  decide +kernel

/-- R118: the rounded constants. -/
theorem test_fl32 :
    fl32 Config.speedStep = 0x3DCCCCCD ∧ fl32 Config.speedEps = 0x3D4CCCCD ∧ fl32 0 = 0 ∧ fl32 (-1) = 0xBF800000 := by
  decide +kernel

/-- R116: under `DRAW` a negative speed takes the drawn value, another speed does not. -/
theorem test_speed_draw :
    speedHalf .exactRational .draw 0x1234 0xBF800000 = 0x1234 ∧ speedDraws .exactRational .draw 0xBF800000 = 1 ∧
    speedHalf .exactRational .draw 0x1234 0x3F800000 = 0x0852 ∧ speedDraws .exactRational .draw 0x3F800000 = 0 := by
  decide

/-- V6, R131. -/
theorem test_chksum :
    (afterWord 0x0600000000 start).response = some (.data 0xF4) ∧ (afterWord 0x0600000000 start).msg = start.msg := by
  decide

/-- V7: the record and byte 13. -/
theorem test_final :
    (afterWord 0x0700000000 start).tx = [#v[2, 14, 1, 0, 1, 0, 0, 0, 8, 0xF0, 0, 0, 0, 0xF4]] ∧
    (afterWord 0x0700000000 start).byte 13 = 0xF4 := by decide

/-- V8: byte 13 as it stands, and the first index that names nothing. -/
theorem test_rd :
    (afterWord 0x080000000D start).response = some (.data 0x5A) ∧
    (afterWord 0x080000000E start).response = some (.fault .badIndex) := by decide

/-- V9: the first cause is kept, and the response carries the second. -/
theorem test_sticky_fault :
    (afterWord 0x0300000003 startFaulted).statusOut = 0x83 ∧
    (afterWord 0x0300000003 startFaulted).response = some (.fault .badLed) ∧
    (afterWord 0x0000000000 start).statusOut = 0x81 := by decide

/-- R190: reset clears `STATUS` and `TX`; R172: idle. -/
theorem test_reset_event :
    (afterStep { startFaulted with tx := [start.msg], inputs := [.reset] }).statusOut = 0 ∧
    (afterStep { startFaulted with tx := [start.msg], inputs := [.reset] }).tx = [] ∧
    (afterStep { startFaulted with msg := startLedOn.msg, inputs := [.reset] }).byte 10 = 0 ∧
    afterStep startFaulted = startFaulted := by decide

/-- R191: the first step after reset. -/
theorem test_first_step_after_reset :
    (afterWord 0x0700000000 State.reset).tx = [#v[2, 14, 1, 0, 1, 0, 0, 0, 8, 0xF0, 0, 0, 0, 0xF4]] := by decide

/-! ### The assembler notation (R70 to R72) -/

theorem test_assembler_lines :
    assembleLine "  setmode blank ; off".toList = some [.setmode 0] ∧ assembleLine "SETBAT -1000".toList = some [.setbat 0xFFFFFC18] ∧
    assembleLine "SETBAT 0x12345678".toList = some [.setbat 0x12345678] ∧
    assembleLine "SETSPD bits:0x7FC00000".toList = some [.setspd 0x7FC00000] ∧ assembleLine "RD 14".toList = none ∧
    assembleLine "SETLED 3".toList = none ∧ assembleLine "; nothing".toList = some [] ∧
    assembleLine "SETBAT 4294967296".toList = none := by decide

theorem test_assembler_speed :
    assembleLine "SETSPD 97.2".toList = some [.setspd 0x42C26666] ∧ assembleLine "SETSPD -0.0".toList = some [.setspd 0x80000000] ∧
    assembleLine "SETSPD 0.1".toList = some [.setspd 0x3DCCCCCD] := by decide +kernel

theorem test_spelling : spellWord 0x05BF800000 = "05_BF800000".toList := by decide

/-! ### Witnesses: the hypotheses of the statements can be met, clause by clause -/

/-- `DecodeOfEncodeIsTheCommand`: the largest codes and index. -/
theorem witness_wf : (Instr.setmode 2).wf = true ∧ (Instr.setled 2).wf = true ∧ (Instr.rd 13).wf = true := by decide

/-- `DecodedWordIsTheCommandsOnlyWord`, `WordsRunAsTheDecoderPseudocodeSays`, `StepRunsTheDecodedCommand`: a word for
each opcode clause, the two edges of the illegal range among them. -/
theorem witness_opcodes :
    opField 0x01FFFFFFFF = 0x01 ∧ opField 0x0200000002 = 0x02 ∧ opField 0x0300000002 = 0x03 ∧ opField 0x0400000000 = 0x04 ∧
    opField 0x0500000000 = 0x05 ∧ opField 0x0600000000 = 0x06 ∧ opField 0x0700000000 = 0x07 ∧ opField 0x080000000D = 0x08 ∧
    (opField 0x0000000000).toNat = 0 ∧ 9 ≤ (opField 0x0900000000).toNat ∧ 9 ≤ (opField 0xFFFFFFFFFF).toNat ∧
    decode 0x080000000D = .ok (.rd 13) ∧ decode 0x080000000E = .refused .badIndex := by decide

/-- `StepRunsTheDecodedCommand`, `ResetEventSetsTheResetValues`: each thing that can stand on the port. -/
theorem witness_inputs :
    start.inputs = [] ∧ (start.present 0x0100000000).inputs = .command 0x0100000000 :: [] ∧
    (start.withInputs [.reset]).inputs = .reset :: [] := by decide

/-- `IllegalOpcodeFaultsAndChangesNothingElse`, `ReservedBitFaults`. -/
theorem witness_bad_words :
    opcodeIllegal 0x0000000000 ∧ opcodeIllegal 0x0900000000 ∧ opcodeIllegal 0xFF00000000 ∧
    reservedBitSet 0x0180000000 ∧ reservedBitSet 0x0200000004 ∧ reservedBitSet 0x0380000003 ∧ reservedBitSet 0x0600000001 ∧
    reservedBitSet 0x0700000100 ∧ reservedBitSet 0x0800000010 := by
  refine ⟨?_, ?_, ?_, ?_, ?_, ?_, ?_, ?_, ?_⟩ <;> decide

/-- `OperandOutsideItsDomainFaults`: words whose must-be-zero bits are clean. -/
theorem witness_bad_operands :
    ¬ reservedBitSet 0x0200000003 ∧ ¬ reservedBitSet 0x0300000003 ∧ ¬ reservedBitSet 0x080000000E ∧
    ¬ reservedBitSet 0x080000000F ∧ ¬ reservedBitSet 0x057FC00000 ∧ isNan (argField 0x057FC00000) = true ∧
    (argField 0x0200000003).extractLsb' 0 2 = 3 ∧ (argField 0x080000000E).extractLsb' 0 4 = 14 := by decide

/-- `FaultingCommandOnlyRecordsTheFault`, `FaultIsTheFirstByPriority`: a first and a later fault, and one of each kind. -/
theorem witness_faulting :
    (∃ t, execWord 0x0000000000 start = .next t ∧ t.response = some (.fault .illegalOpcode) ∧ start.status.fault = false) ∧
    (∃ t, execWord 0x0200000007 startFaulted = .next t ∧ t.response = some (.fault .reservedArg) ∧
      startFaulted.status.fault = true ∧ ¬ opcodeIllegal 0x0200000007 ∧ reservedBitSet 0x0200000007) ∧
    ∃ t, execWord 0x057FC00000 start = .next t ∧ t.response = some (.fault .speedNan) ∧ ¬ opcodeIllegal 0x057FC00000 ∧
      ¬ reservedBitSet 0x057FC00000 :=
  ⟨⟨_, rfl, rfl, rfl⟩, ⟨_, rfl, rfl, rfl, by decide, by decide⟩, ⟨_, rfl, rfl, by decide, by decide⟩⟩

/-- `RecordedFaultStaysUntilReset`, `TransmitStreamOnlyGrows`: a step that is no reset, from a faulted state. -/
theorem witness_sticky :
    ∃ t, step (startFaulted.present 0x0700000000) = .next t ∧
      (∀ rest, (startFaulted.present 0x0700000000).inputs ≠ .reset :: rest) ∧
      (startFaulted.present 0x0700000000).status.fault = true :=
  ⟨_, rfl, (by intro rest h; cases h), rfl⟩

/-- `CommandsDependOnTheMessageAlone`, `StaleByteDoesNotReachTheOutputs`: different states with the same message, and
messages that differ in byte 13. -/
theorem witness_same_message :
    start.msg = startFaulted.msg ∧ start ≠ startFaulted ∧
    (∀ k, k ≠ 13 → start.byte k = (start.setByte 13 0x00).byte k) ∧ start.byte 13 ≠ (start.setByte 13 0x00).byte 13 := by
  decide

/-- `EachByteIsWrittenByItsCommandsOnly`: each clause's byte does change under a command the clause names. -/
theorem witness_byte_writes :
    (∃ t, exec .init (start.setByte 3 1) = .next t ∧ t.byte 3 ≠ (start.setByte 3 1).byte 3) ∧
    (∃ t, exec (.setmode 0) start = .next t ∧ t.byte 4 ≠ start.byte 4 ∧ t.byte 10 ≠ start.byte 10) ∧
    (∃ t, exec (.setbat 0x0101) start = .next t ∧ t.byte 6 ≠ start.byte 6 ∧ t.byte 7 ≠ start.byte 7) ∧
    (∃ t, exec (.setspd 0) start = .next t ∧ t.byte 8 ≠ start.byte 8 ∧ t.byte 9 ≠ start.byte 9) ∧
    (∃ t, exec (.setled 1) start = .next t ∧ t.byte 11 ≠ start.byte 11) ∧
    (∃ t, exec (.setled 2) start = .next t ∧ t.byte 12 ≠ start.byte 12) ∧
    (∃ t, exec .final start = .next t ∧ t.byte 13 ≠ start.byte 13 ∧ t.tx ≠ start.tx) ∧
    ∃ t, exec (.setmode 3) start = .next t ∧ t.response = some (.fault .badMode) :=
  ⟨⟨_, rfl, by decide⟩, ⟨_, rfl, by decide, by decide⟩, ⟨_, rfl, by decide, by decide⟩, ⟨_, rfl, by decide, by decide⟩,
    ⟨_, rfl, by decide⟩, ⟨_, rfl, by decide⟩, ⟨_, rfl, by decide, by decide⟩, ⟨_, rfl, rfl⟩⟩

/-- `EveryStepKeepsTheInvariant`: a state with a record that meets the invariant and steps. -/
theorem witness_invariant :
    ∃ s t : State, Inv s ∧ s.tx ≠ [] ∧ step s = .next t :=
  ⟨{ start with
      msg := #v[2, 14, 1, 0, 1, 0, 0, 0, 8, 0xF0, 0, 0, 0, 0xF4],
      tx := [#v[2, 14, 1, 0, 1, 0, 0, 0, 8, 0xF0, 0, 0, 0, 0xF4]],
      inputs := [.command 0x0200000000] }, _,
    { header := by decide, mode := by decide, led := by decide, status := by decide,
      records := by
        intro r hr
        rw [List.mem_singleton] at hr
        subst hr
        exact ⟨rfl, rfl⟩
      lastRecord := by intro r hr; cases hr; rfl
      noRecord := by intro h; cases h },
    by decide, rfl⟩

/-- `ReachableMessageBytes`, `EveryRecordIsMarkedAndFresh`: a state with a record is reachable, and so is one without. -/
theorem witness_reachable :
    (∃ s, Reachable s ∧ s.tx = []) ∧ ∃ s r, Reachable s ∧ s.tx.getLast? = some r :=
  ⟨⟨_, ⟨[], 0, rfl⟩, rfl⟩, _, _, ⟨[.command 0x0700000000], 1, rfl⟩, rfl⟩

/-- `CommandsAreIdempotentOnTheMessage`, `RdAnswersTheByte`, `ChecksumFreshness`, `FinalTwiceEmitsTheSameRecord`: the
reads complete. -/
theorem witness_reads :
    (∃ t, exec .chksum start = .next t) ∧ (13 : BitVec 4).toNat < 14 ∧ (∃ t, exec (.rd 13) start = .next t) ∧
    (∃ t, exec .final start = .next t) ∧ (0x10 : Arg).extractLsb' 4 28 ≠ 0 :=
  ⟨⟨_, rfl⟩, by decide, ⟨_, rfl⟩, ⟨_, rfl⟩, by decide⟩

/-- `InitWritesTheDefaultMessage`, `ChksumAnswersTheXor`, `FinalStoresTheChecksumAndEmits`,
`SetmodeWritesTheModeAndStampsBlank`, `SetledWritesTheLedField`: arguments with a must-be-zero bit, and legal codes. -/
theorem witness_arguments :
    (0x80000000 : Arg) ≠ 0 ∧ (4 : Arg).extractLsb' 2 30 ≠ 0 ∧ (2 : BitVec 2) ≠ 3 ∧ (1 : BitVec 2) ≠ 0 := by decide

/-- `LeavingBlankKeepsTheStamp`, `BlinkIsAnOverlayEndedByOffOrOn`: the stamp and the blink flag can be taken away. -/
theorem witness_stamp_and_blink :
    (∃ t, exec (.setled 0) (start.setByte 10 0xF0) = .next t ∧ (start.setByte 10 0xF0).byte 10 = 0xF0 ∧ t.byte 10 ≠ 0xF0) ∧
    ∃ t, exec (.setled 1) (start.setByte 12 0x80) = .next t ∧ ((start.setByte 12 0x80).byte 12).getLsbD 7 = true ∧
      (t.byte 12).getLsbD 7 = false :=
  ⟨⟨_, rfl, by decide, by decide⟩, ⟨_, rfl, by decide, by decide⟩⟩

/-- `SetspdWritesTheSpeedFieldOnly`, `SetspdCompletesUnderEveryParameter`, `SetspdNeverWritesTheSentinel`,
`SpeedEncoderIsTheRationalFormula`, `SpeedEncoderIntegerForm`, `RoundingKeepsBinary32Values`, `NanSpeedFaults`,
`InfiniteSpeedWritesZero`: a zero, the largest finite operand, an infinity and the smallest NaN. -/
theorem witness_operand_classes :
    isNan 0x00000000 = false ∧ f32Exp 0x7F7FFFFF ≠ 0xFF ∧ (0x7F7FFFFF : Arg) ≠ 0x80000000 ∧
    isNan 0x7F800000 = false ∧ isInf 0xFF800000 = true ∧
    (0x7F800001 : Arg).extractLsb' 23 8 = 0xFF ∧ (0x7F800001 : Arg).extractLsb' 0 23 ≠ 0 ∧
    0 ≤ f32Pow 0x4B000000 ∧ f32Pow 0x00000001 < 0 ∧ ∃ t, exec (.setspd 0x00000000) start = .next t :=
  ⟨by decide, by decide, by decide, by decide, by decide, by decide, by decide, by decide, by decide, ⟨_, rfl⟩⟩

/-- `SequenceValueRangeAndMonotonicity`, `NegativeSpeeds`, `SpeedIsNotClamped`: operands on both sides of -1/20, both
below the display's maximum and at the ends of the ranges. -/
theorem witness_speeds :
    -1 / 20 ≤ f32Value 0xBD4CCCCC ∧ f32Value 0xBD4CCCCC < 0 ∧ f32Exp 0xBD4CCCCC ≠ 0xFF ∧
    f32Value 0xBD4CCCCD < -1 / 20 ∧ f32Exp 0xBD4CCCCD ≠ 0xFF ∧
    f32Value 0xBD4CCCCC ≤ f32Value 0x458BC000 ∧ (447195 / 100 : Rat) ≤ f32Value 0x458BC000 ∧
    f32Value 0x3D4CCCCC < 1 / 20 ∧
    f32Exp 0x42BE199A ≠ 0xFF ∧ f32Exp 0x42C6B334 ≠ 0xFF ∧
    (9505 / 100 : Rat) ≤ f32Value 0x42BE199A ∧ f32Value 0x42BE199A < 9935 / 100 ∧
    (9935 / 100 : Rat) ≤ f32Value 0x42C6B334 ∧ f32Value 0x42C6B333 < 9935 / 100 ∧
    (951 : Int) ≤ 951 ∧ (993 : Int) ≤ 993 ∧ (0 : Int) ≤ 0 ∧ (0 : Int) < 161 ∧ (161 : Int) < 162 := by
  decide +kernel

/-- `ChecksumIsLinear`, `StatusByteLayout`: a byte other than byte 13, the header constants, no fault recorded. -/
theorem witness_checksum : (12 : Fin 14) ≠ 13 ∧ headerConstant start.msg ∧ start.status.fault = false := by decide

/-- `RoundingIsToTheNearest`: a rational that is no binary32 value, rounded to a finite one. -/
theorem witness_rounding : f32Exp (fl32 (1 / 10)) ≠ 0xFF ∧ f32Value (fl32 (1 / 10)) ≠ 1 / 10 := by decide +kernel

/-- `AssemblerEmitsOnlyCommands`, `SpellingDeterminesTheWord`: a line with words (R71), and a spelled word. -/
theorem witness_assembled :
    assembleWords "BLANKLEDON".toList = some [0x0200000000, 0x0300000001] ∧
    spellWord 0x04000003E7 = "04_000003E7".toList ∧ (1 : Nat) < 2 ∧ (7 : Nat) < 8 := by decide

end Sys2Proof.Machine.Tests
end

section
/-! Rounding to binary32 (R6): the model's powers, logarithm and integer rounding in the terms of Mathlib, the fields
of a pattern, and the pattern `fl32` gives. -/

namespace Sys2Proof.Machine

/-! ### Powers of two, `floorLog2` and `roundEven` -/

theorem pow2_eq_zpow (e : Int) : pow2 e = (2 : Rat) ^ e := by
  cases e with
  | ofNat n => simp [pow2]
  | negSucc n => simp [pow2, Rat.mkRat_eq_div, zpow_negSucc]

/-- A positive rational lies strictly between the powers of two next to the quotient of the leading powers of its
numerator and denominator. -/
theorem zpow_log2_num_den_bounds {x : Rat} (hx : 0 < x) :
    (2 : Rat) ^ ((x.num.toNat.log2 : Int) - x.den.log2 - 1) < x ∧
      x < (2 : Rat) ^ ((x.num.toNat.log2 : Int) - x.den.log2 + 1) := by
  have hnum : 0 < x.num := Rat.num_pos.mpr hx
  have hden : (0 : Rat) < x.den := by exact_mod_cast x.den_pos
  have hx_eq : (x.num.toNat : Rat) / x.den = x := by
    have hcast : (x.num.toNat : Rat) = x.num := by exact_mod_cast Int.toNat_of_nonneg hnum.le
    rw [hcast, Rat.num_div_den]
  have bounds (n : Nat) (hn : n ≠ 0) : (2 : Rat) ^ (n.log2 : Int) ≤ n ∧ (n : Rat) < 2 ^ ((n.log2 : Int) + 1) :=
    ⟨by exact_mod_cast Nat.log2_self_le hn, by exact_mod_cast Nat.lt_log2_self⟩
  obtain ⟨hnumLow, hnumHigh⟩ := bounds x.num.toNat (by omega)
  obtain ⟨hdenLow, hdenHigh⟩ := bounds x.den x.den_nz
  generalize (x.num.toNat.log2 : Int) = a at *
  generalize (x.den.log2 : Int) = b at *
  rw [← hx_eq, lt_div_iff₀ hden, div_lt_iff₀ hden]
  constructor
  · calc (2 : Rat) ^ (a - b - 1) * x.den < 2 ^ (a - b - 1) * 2 ^ (b + 1) := by gcongr
      _ = 2 ^ a := by rw [← zpow_add₀ two_ne_zero]; congr 1; ring
      _ ≤ x.num.toNat := hnumLow
  · calc (x.num.toNat : Rat) < 2 ^ (a + 1) := hnumHigh
      _ = 2 ^ (a - b + 1) * 2 ^ b := by rw [← zpow_add₀ two_ne_zero]; congr 1; ring
      _ ≤ 2 ^ (a - b + 1) * x.den := by gcongr

theorem two_zpow_le_iff_le_log {x : Rat} (hx : 0 < x) (k : Int) : 2 ^ k ≤ x ↔ k ≤ Int.log 2 x := by
  exact_mod_cast Int.zpow_le_iff_le_log one_lt_two hx

theorem lt_two_zpow_iff_log_lt {x : Rat} (hx : 0 < x) (k : Int) : x < 2 ^ k ↔ Int.log 2 x < k := by
  exact_mod_cast Int.lt_zpow_iff_log_lt one_lt_two hx

theorem floorLog2_eq_log {x : Rat} (hx : 0 < x) : floorLog2 x = Int.log 2 x := by
  obtain ⟨hlow, hhigh⟩ := zpow_log2_num_den_bounds hx
  simp only [floorLog2, pow2_eq_zpow]
  generalize (x.num.toNat.log2 : Int) - x.den.log2 = guess at *
  rw [lt_two_zpow_iff_log_lt hx] at hhigh
  have hlow := (two_zpow_le_iff_le_log hx _).mp hlow.le
  split
  next hguess =>
    rw [two_zpow_le_iff_le_log hx] at hguess
    omega
  next hguess =>
    rw [two_zpow_le_iff_le_log hx] at hguess
    omega

theorem lt_zpow_iff_floorLog2_lt {x : Rat} (hx : 0 < x) (k : Int) : x < 2 ^ k ↔ floorLog2 x < k := by
  rw [floorLog2_eq_log hx, lt_two_zpow_iff_log_lt hx]

theorem zpow_le_iff_le_floorLog2 {x : Rat} (hx : 0 < x) (k : Int) : 2 ^ k ≤ x ↔ k ≤ floorLog2 x := by
  rw [floorLog2_eq_log hx, two_zpow_le_iff_le_log hx]

/-- The rounded integer is the one below or the one above, and not the farther of the two. -/
theorem roundEven_cases {y : Rat} (hy : 0 ≤ y) :
    (roundEven y : Rat) = y.floor ∧ y - y.floor ≤ 1 / 2 ∨
      (roundEven y : Rat) = y.floor + 1 ∧ 1 / 2 ≤ y - y.floor := by
  have hfloor : 0 ≤ y.floor := Int.floor_nonneg.mpr hy
  have hbelow : (y.floor.toNat : Rat) = y.floor := by exact_mod_cast Int.toNat_of_nonneg hfloor
  have habove : ((y.floor + 1).toNat : Rat) = y.floor + 1 := by exact_mod_cast Int.toNat_of_nonneg (by omega)
  simp only [roundEven]
  split_ifs with hlt hgt
  · exact .inl ⟨hbelow, hlt.le⟩
  · exact .inr ⟨habove, hgt.le⟩
  · exact .inl ⟨hbelow, not_lt.mp hgt⟩
  · exact .inr ⟨habove, not_lt.mp hlt⟩

theorem abs_roundEven_sub_le_half {y : Rat} (hy : 0 ≤ y) : |(roundEven y : Rat) - y| ≤ 1 / 2 := by
  have hlow : (y.floor : Rat) ≤ y := Int.floor_le y
  have hhigh : y < y.floor + 1 := Int.lt_floor_add_one y
  rw [abs_le]
  rcases roundEven_cases hy with ⟨heq, hrest⟩ | ⟨heq, hrest⟩ <;> constructor <;> linarith

/-- No integer is nearer than one within a half. -/
theorem abs_roundEven_sub_le {y : Rat} (hy : 0 ≤ y) (k : Int) : |(roundEven y : Rat) - y| ≤ |(k : Rat) - y| := by
  have hhalf := abs_roundEven_sub_le_half hy
  by_cases hk : k = roundEven y
  · simp [hk]
  · have hgap : (1 : Rat) ≤ |(k : Rat) - roundEven y| := by exact_mod_cast Int.one_le_abs (sub_ne_zero.mpr hk)
    have htri : |(k : Rat) - roundEven y| ≤ |(k : Rat) - y| + |(roundEven y : Rat) - y| := by
      rw [abs_sub_comm (roundEven y : Rat) y]; exact abs_sub_le _ _ _
    linarith

@[simp] theorem roundEven_natCast (n : Nat) : roundEven (n : Rat) = n := by
  have hnear := abs_roundEven_sub_le (Nat.cast_nonneg (α := Rat) n) n
  simpa [sub_eq_zero] using hnear

theorem le_roundEven {n : Nat} {y : Rat} (h : n ≤ y) : n ≤ roundEven y := by
  have := abs_le.mp (abs_roundEven_sub_le_half ((Nat.cast_nonneg n).trans h))
  have : (n : Rat) < roundEven y + 1 := by linarith
  exact Nat.lt_succ_iff.mp (by exact_mod_cast this)

theorem roundEven_le {n : Nat} {y : Rat} (hy : 0 ≤ y) (h : y ≤ n) : roundEven y ≤ n := by
  have := abs_le.mp (abs_roundEven_sub_le_half hy)
  have : (roundEven y : Rat) < n + 1 := by linarith
  exact Nat.lt_succ_iff.mp (by exact_mod_cast this)

/-! ### The fields of a binary32 pattern -/

/-- The magnitude of a pattern's integer `M` (R111). -/
def f32Significand (p : Arg) : Nat := (f32Mant p).natAbs

/-- A pattern without its sign bit. -/
def f32Magnitude (p : Arg) : Nat := p.toNat % 2 ^ 31

theorem f32Significand_eq (p : Arg) :
    f32Significand p = if f32Exp p = 0 then (f32Frac p).toNat else 2 ^ 23 + (f32Frac p).toNat := by
  simp only [f32Significand, f32Mant]
  split_ifs <;> omega

theorem f32Mant_eq (p : Arg) : f32Mant p = if f32Sign p then -(f32Significand p : Int) else f32Significand p := by
  rw [f32Significand_eq]
  simp only [f32Mant]
  split_ifs <;> push_cast <;> rfl

theorem abs_f32Mant (p : Arg) : |f32Mant p| = f32Significand p := Int.abs_eq_natAbs _

theorem f32Significand_lt (p : Arg) : f32Significand p < 2 ^ 24 := by
  rw [f32Significand_eq]
  split <;> omega

theorem neg_149_le_f32Pow (p : Arg) : -149 ≤ f32Pow p := by
  simp only [f32Pow]
  split
  next => rfl
  next hexp =>
    have : (f32Exp p).toNat ≠ 0 := by simpa [BitVec.toNat_eq] using hexp
    omega

/-- A finite value is subnormal or has its leading bit (R110). -/
theorem f32Pow_eq_or_le_f32Significand (p : Arg) : f32Pow p = -149 ∨ 2 ^ 23 ≤ f32Significand p := by
  rw [f32Significand_eq]
  simp only [f32Pow]
  split
  · exact .inl rfl
  · exact .inr (Nat.le_add_right ..)

theorem f32Magnitude_eq_fields (p : Arg) : f32Magnitude p = (f32Exp p).toNat * 2 ^ 23 + (f32Frac p).toNat := by
  simp only [f32Magnitude, f32Exp, f32Frac, BitVec.extractLsb'_toNat, Nat.shiftRight_eq_div_pow]
  omega

/-- A pattern's magnitude is its exponent above -149 and its significand, added as `roundMagnitude` adds them: the
leading bit of a normal significand carries into the exponent field. -/
theorem f32Magnitude_eq (p : Arg) : f32Magnitude p = (f32Pow p + 149).toNat * 2 ^ 23 + f32Significand p := by
  rw [f32Magnitude_eq_fields, f32Significand_eq]
  simp only [f32Pow]
  split
  next hexp => simp [hexp]
  next hexp =>
    have : (f32Exp p).toNat ≠ 0 := by simpa [BitVec.toNat_eq] using hexp
    omega

theorem f32Magnitude_eq_zero {p : Arg} (hzero : f32Significand p = 0) : f32Magnitude p = 0 := by
  have := f32Pow_eq_or_le_f32Significand p
  rw [f32Magnitude_eq]
  omega

theorem f32Magnitude_lt_of_finite {p : Arg} (h : f32Exp p ≠ 0xFF) : f32Magnitude p < 0x7F800000 := by
  have : (f32Exp p).toNat ≠ 255 := by simpa [BitVec.toNat_eq] using h
  rw [f32Magnitude_eq_fields]
  omega

theorem f32Sign_toNat (p : Arg) : (f32Sign p).toNat = p.toNat / 2 ^ 31 := by
  have hbit : (f32Sign p).toNat = p.toNat / 2 ^ 31 % 2 := Nat.toNat_testBit p.toNat 31
  omega

theorem f32Pattern_toNat {b : Bool} {n : Nat} (hn : n < 2 ^ 31) :
    (f32Pattern b n).toNat = b.toNat * 2 ^ 31 + n := by
  have happend : (f32Pattern b n).toNat = b.toNat <<< 31 ||| n % 2 ^ 31 := by
    simp only [f32Pattern, BitVec.toNat_append, BitVec.toNat_ofBool, BitVec.toNat_ofNat]
  rw [happend, Nat.mod_eq_of_lt hn, ← Nat.shiftLeft_add_eq_or_of_lt hn, Nat.shiftLeft_eq]

theorem f32Magnitude_f32Pattern {b : Bool} {n : Nat} (hn : n < 2 ^ 31) : f32Magnitude (f32Pattern b n) = n := by
  rw [f32Magnitude, f32Pattern_toNat hn]
  omega

theorem f32Sign_f32Pattern {b : Bool} {n : Nat} (hn : n < 2 ^ 31) : f32Sign (f32Pattern b n) = b := by
  apply Function.LeftInverse.injective Bool.ofNat_toNat
  rw [f32Sign_toNat, f32Pattern_toNat hn]
  omega

theorem f32Pattern_sign_magnitude (p : Arg) : f32Pattern (f32Sign p) (f32Magnitude p) = p := by
  have hmag : f32Magnitude p < 2 ^ 31 := Nat.mod_lt _ (Nat.two_pow_pos 31)
  apply BitVec.eq_of_toNat_eq
  rw [f32Pattern_toNat hmag, f32Sign_toNat, f32Magnitude]
  omega

theorem f32Exp_f32Pattern_infinity (b : Bool) : f32Exp (f32Pattern b 0x7F800000) = 0xFF := by
  cases b <;> decide

theorem f32Value_eq_mant (p : Arg) : f32Value p = f32Mant p * 2 ^ f32Pow p := by
  rw [f32Value, pow2_eq_zpow]

theorem f32Value_eq (p : Arg) :
    f32Value p = (if f32Sign p then -1 else 1) * (f32Significand p * 2 ^ f32Pow p) := by
  rw [f32Value_eq_mant, f32Mant_eq]
  split <;> push_cast <;> ring

/-- A pattern put together from a significand and an exponent has their value, also where the significand `2 ^ 24`
carries into the exponent field. -/
theorem f32Value_f32Pattern {b : Bool} {u : Int} {m : Nat} (hu : -149 ≤ u) (hm : m ≤ 2 ^ 24)
    (hnormal : u = -149 ∨ 2 ^ 23 ≤ m) (hfit : (u + 149).toNat * 2 ^ 23 + m < 2 ^ 31) :
    f32Value (f32Pattern b ((u + 149).toNat * 2 ^ 23 + m)) = (if b then -1 else 1) * (m * 2 ^ u) := by
  rw [f32Value_eq, f32Sign_f32Pattern hfit]
  have hmag := (f32Magnitude_eq _).symm.trans (f32Magnitude_f32Pattern (b := b) hfit)
  generalize f32Pattern b _ = p at hmag ⊢
  have := f32Significand_lt p
  have := neg_149_le_f32Pow p
  have hcases : f32Pow p = u ∧ f32Significand p = m ∨
      f32Pow p = u + 1 ∧ f32Significand p = 2 ^ 23 ∧ m = 2 ^ 24 := by
    rcases f32Pow_eq_or_le_f32Significand p with _ | _ <;> omega
  rcases hcases with ⟨hpow, hsig⟩ | ⟨hpow, hsig, hcarry⟩
  · rw [hpow, hsig]
  · rw [hpow, hsig, hcarry, zpow_add_one₀ two_ne_zero]
    push_cast
    ring

/-! ### The rounded pattern -/

/-- The exponent of the unit in the last place at a positive rational. -/
def ulpExp (x : Rat) : Int := max (floorLog2 x - 23) (-149)

theorem neg_149_le_ulpExp (x : Rat) : -149 ≤ ulpExp x := le_max_right ..

theorem div_zpow_ulpExp_lt {x : Rat} (hx : 0 < x) : x / 2 ^ ulpExp x < 2 ^ 24 := by
  have hlt : x < 2 ^ (24 + ulpExp x) := (lt_zpow_iff_floorLog2_lt hx _).mpr (by unfold ulpExp; omega)
  rwa [div_lt_iff₀ (by positivity), ← zpow_natCast, ← zpow_add₀ two_ne_zero]

theorem ulpExp_eq_or_le_div {x : Rat} (hx : 0 < x) : ulpExp x = -149 ∨ 2 ^ 23 ≤ x / 2 ^ ulpExp x := by
  rcases max_choice (floorLog2 x - 23) (-149) with hmax | hmax
  · have hle : 2 ^ (23 + ulpExp x) ≤ x := (zpow_le_iff_le_floorLog2 hx _).mpr (by unfold ulpExp; omega)
    rw [zpow_add₀ two_ne_zero] at hle
    exact .inr ((le_div_iff₀ (by positivity)).mpr (by exact_mod_cast hle))
  · exact .inl hmax

theorem roundMagnitude_of_pos {x : Rat} (hx : 0 < x) :
    roundMagnitude x = min ((ulpExp x + 149).toNat * 2 ^ 23 + roundEven (x / 2 ^ ulpExp x)) 0x7F800000 := by
  rw [← pow2_eq_zpow]
  exact if_neg hx.ne'

/-- No value `M * 2 ^ E` of 24 bits is nearer than the nearest whole number of units in the last place: where `E` is
no smaller than the unit's exponent the value is a whole number of units itself, and where it is smaller the value lies
at or below the lower end of the binade of `x`, which is a whole number of units. -/
theorem abs_roundEven_mul_ulp_sub_le {x : Rat} (hx : 0 < x) {M E : Int} (hM : |M| < 2 ^ 24) (hE : -149 ≤ E) :
    |roundEven (x / 2 ^ ulpExp x) * 2 ^ ulpExp x - x| ≤ |M * 2 ^ E - x| := by
  have hulp : (0 : Rat) < 2 ^ ulpExp x := by positivity
  have hgrid (k : Int) : |roundEven (x / 2 ^ ulpExp x) * 2 ^ ulpExp x - x| ≤ |k * 2 ^ ulpExp x - x| := by
    have hscale (z : Rat) : |z * 2 ^ ulpExp x - x| = |z - x / 2 ^ ulpExp x| * 2 ^ ulpExp x := by
      rw [← abs_of_pos hulp, ← abs_mul, abs_of_pos hulp, sub_mul, div_mul_cancel₀ _ hulp.ne']
    rw [hscale, hscale]
    exact mul_le_mul_of_nonneg_right (abs_roundEven_sub_le (by positivity) k) hulp.le
  rcases le_or_gt (ulpExp x) E with hle | hlt
  · have hwhole : (M : Rat) * 2 ^ E = ((M * 2 ^ (E - ulpExp x).toNat : Int) : Rat) * 2 ^ ulpExp x := by
      push_cast
      rw [mul_assoc, ← zpow_natCast, ← zpow_add₀ two_ne_zero]
      congr 2
      omega
    rw [hwhole]
    exact hgrid _
  · have hbinade : 2 ^ 23 * 2 ^ ulpExp x ≤ x :=
      (le_div_iff₀ hulp).mp ((ulpExp_eq_or_le_div hx).resolve_left (by omega))
    have hvalue : (M : Rat) * 2 ^ E ≤ 2 ^ 23 * 2 ^ ulpExp x := by
      have hM' : (M : Rat) ≤ 2 ^ 24 := by exact_mod_cast ((le_abs_self M).trans hM.le)
      calc (M : Rat) * 2 ^ E ≤ 2 ^ 24 * 2 ^ E := by gcongr
        _ = 2 ^ 23 * 2 ^ (E + 1) := by rw [zpow_add_one₀ two_ne_zero]; ring
        _ ≤ 2 ^ 23 * 2 ^ ulpExp x := by gcongr; exacts [one_le_two, hlt]
    calc _ ≤ |((2 ^ 23 : Int) : Rat) * 2 ^ ulpExp x - x| := hgrid _
      _ = x - 2 ^ 23 * 2 ^ ulpExp x := by rw [abs_sub_comm, ← abs_of_nonneg (sub_nonneg.mpr hbinade)]; norm_cast
      _ ≤ x - M * 2 ^ E := by linarith
      _ ≤ |M * 2 ^ E - x| := by rw [abs_sub_comm]; exact le_abs_self _

/-- The value `roundMagnitude` gives, where it is no infinity's. -/
theorem f32Value_f32Pattern_roundMagnitude {b : Bool} {x : Rat} (hx : 0 < x)
    (hfin : f32Exp (f32Pattern b (roundMagnitude x)) ≠ 0xFF) :
    f32Value (f32Pattern b (roundMagnitude x)) =
      (if b then -1 else 1) * (roundEven (x / 2 ^ ulpExp x) * 2 ^ ulpExp x) := by
  rw [roundMagnitude_of_pos hx] at hfin ⊢
  rcases min_choice ((ulpExp x + 149).toNat * 2 ^ 23 + roundEven (x / 2 ^ ulpExp x)) 0x7F800000 with hmin | hmin
  · rw [hmin]
    refine f32Value_f32Pattern (neg_149_le_ulpExp x) ?_ ?_ (by omega)
    · exact roundEven_le (by positivity) (by exact_mod_cast (div_zpow_ulpExp_lt hx).le)
    · exact (ulpExp_eq_or_le_div hx).imp_right fun h => le_roundEven (by exact_mod_cast h)
  · rw [hmin] at hfin
    exact absurd (f32Exp_f32Pattern_infinity b) hfin

/-- The unit in the last place of a value that has 24 bits or the least exponent is its own exponent. -/
theorem ulpExp_significand_mul_zpow {m : Nat} {e : Int} (hpos : 0 < m) (hm : m < 2 ^ 24) (he : -149 ≤ e)
    (hnormal : e = -149 ∨ 2 ^ 23 ≤ m) : ulpExp (m * 2 ^ e) = e := by
  have hx : (0 : Rat) < m * 2 ^ e := by positivity
  have hhigh : floorLog2 (m * 2 ^ e) < 24 + e := by
    rw [← lt_zpow_iff_floorLog2_lt hx, zpow_add₀ two_ne_zero]
    gcongr
    exact_mod_cast hm
  rcases hnormal with rfl | hlead
  · exact max_eq_right (by omega)
  · have hlow : 23 + e ≤ floorLog2 (m * 2 ^ e) := by
      rw [← zpow_le_iff_le_floorLog2 hx, zpow_add₀ two_ne_zero]
      gcongr
      exact_mod_cast hlead
    unfold ulpExp
    omega

theorem roundMagnitude_of_finite {p : Arg} (hfin : f32Exp p ≠ 0xFF) :
    roundMagnitude (f32Significand p * 2 ^ f32Pow p) = f32Magnitude p := by
  rcases Nat.eq_zero_or_pos (f32Significand p) with hzero | hpos
  · simp [f32Magnitude_eq_zero hzero, hzero, roundMagnitude]
  · rw [roundMagnitude_of_pos (by positivity), ulpExp_significand_mul_zpow hpos (f32Significand_lt p)
      (neg_149_le_f32Pow p) (f32Pow_eq_or_le_f32Significand p), mul_div_cancel_right₀ _ (by positivity),
      roundEven_natCast, ← f32Magnitude_eq]
    exact min_eq_left (f32Magnitude_lt_of_finite hfin).le

/-! ### The obligations -/

theorem fl32_of_neg {x : Rat} (hx : x < 0) : fl32 x = f32Pattern true (roundMagnitude (-x)) := if_pos hx

theorem fl32_of_nonneg {x : Rat} (hx : 0 ≤ x) : fl32 x = f32Pattern false (roundMagnitude x) := if_neg hx.not_gt

theorem f32Value_fl32_zero : f32Value (fl32 0) = 0 := by
  have hmant : f32Mant (f32Pattern false 0) = 0 := by decide
  rw [fl32_of_nonneg le_rfl, f32Value_eq_mant]
  simp [roundMagnitude, hmant]

/-- Settles O46: a binary32 value is a 24-bit integer times a power of two from `2 ^ -149` up, and no number of that
form is nearer than the one rounded to the unit in the last place. -/
theorem roundingIsToTheNearest : Obligations.RoundingIsToTheNearest := by
  intro x p hfin _
  have hmant : |f32Mant p| < 2 ^ 24 := by
    rw [abs_f32Mant]
    exact_mod_cast f32Significand_lt p
  have hpow := neg_149_le_f32Pow p
  rw [f32Value_eq_mant p]
  rcases lt_trichotomy x 0 with hx | rfl | hx
  · rw [fl32_of_neg hx] at hfin ⊢
    have hx' := neg_pos.mpr hx
    rw [f32Value_f32Pattern_roundMagnitude hx' hfin, if_pos rfl]
    calc |-1 * (roundEven (-x / 2 ^ ulpExp (-x)) * 2 ^ ulpExp (-x)) - x|
      _ = |roundEven (-x / 2 ^ ulpExp (-x)) * 2 ^ ulpExp (-x) - -x| := by rw [← abs_neg]; congr 1; ring
      _ ≤ |(-f32Mant p : Int) * 2 ^ f32Pow p - -x| :=
        abs_roundEven_mul_ulp_sub_le hx' ((abs_neg _).trans_lt hmant) hpow
      _ = |f32Mant p * 2 ^ f32Pow p - x| := by rw [← abs_neg]; congr 1; push_cast; ring
  · rw [f32Value_fl32_zero, sub_zero, abs_zero]
    exact abs_nonneg _
  · rw [fl32_of_nonneg hx.le] at hfin ⊢
    rw [f32Value_f32Pattern_roundMagnitude hx hfin]
    simpa using abs_roundEven_mul_ulp_sub_le hx hmant hpow

theorem f32Significand_pos_of_sign {p : Arg} (hsign : f32Sign p = true) (hp : p ≠ 0x80000000) :
    0 < f32Significand p := by
  refine Nat.pos_of_ne_zero fun hzero => hp ?_
  rw [← f32Pattern_sign_magnitude p, hsign, f32Magnitude_eq_zero hzero]
  rfl

/-- Settles O47: the unit in the last place of a binary32 value is its own exponent, so its significand is rounded to
itself; the sign comes back too, but for a zero's. -/
theorem roundingKeepsBinary32Values : Obligations.RoundingKeepsBinary32Values := by
  intro p hfin hp
  rw [f32Value_eq]
  conv_rhs => rw [← f32Pattern_sign_magnitude p, ← roundMagnitude_of_finite hfin]
  cases hsign : f32Sign p with
  | true =>
    have hpos := f32Significand_pos_of_sign hsign hp
    have hval : (0 : Rat) < f32Significand p * 2 ^ f32Pow p := by positivity
    simp [fl32_of_neg (neg_neg_of_pos hval)]
  | false =>
    have hval : (0 : Rat) ≤ f32Significand p * 2 ^ f32Pow p := by positivity
    simp [fl32_of_nonneg hval]

end Sys2Proof.Machine
end

section
/-! The state over one step (10_state.md): what kinds of effect a command has, which bytes of `MSG` it writes, and the
invariant that every reset establishes and every step keeps. -/

namespace Sys2Proof.Machine

/-! ### The kinds of effect of a command -/

/-- Seen from outside `MSG`, a command writes bytes below byte 13 and answers nothing, reads and answers data, emits as
`FINAL` does, or faults. -/
theorem exec_kinds {i : Instr} {s t : State} (h : exec i s = .next t) :
    ((i ≠ .chksum ∧ ∀ idx, i ≠ .rd idx) ∧
      ∃ m, msgByte m 13 = msgByte s.msg 13 ∧ t = (s.withMsg m).respond .nothing) ∨
    ((i = .chksum ∨ ∃ idx, i = .rd idx) ∧ ∃ b, t = s.respond (.data b)) ∨
    (i = .final ∧ t = ((s.setByte 13 (checksum s.msg)).emit).respond .nothing) ∨
    ∃ c, t = s.raiseFault c := by
  rcases exec_cases h with ⟨rfl, rfl⟩ | ⟨rfl, rfl⟩ | ⟨rfl, rfl⟩ | ⟨rfl, rfl⟩ | ⟨rfl, rfl⟩ | ⟨rfl, rfl⟩ | ⟨rfl, rfl⟩ |
    ⟨bat, rfl, rfl⟩ | ⟨spd, rfl, -, rfl⟩ | ⟨rfl, rfl⟩ | ⟨rfl, rfl⟩ | ⟨idx, -, rfl, rfl⟩ | ⟨c, rfl, -⟩
  iterate 9 exact .inl ⟨by simp, _, by simp, rfl⟩
  · exact .inr (.inl ⟨.inl rfl, _, rfl⟩)
  · exact .inr (.inr (.inl ⟨rfl, rfl⟩))
  · exact .inr (.inl ⟨.inr ⟨idx, rfl⟩, _, rfl⟩)
  · exact .inr (.inr (.inr ⟨c, rfl⟩))

/-- A command leaves `STATUS`, or records a fault in it. -/
theorem exec_status {i : Instr} {s t : State} (h : exec i s = .next t) :
    t.status = s.status ∨ ∃ c, t.status = s.status.afterFault c := by
  rcases exec_kinds h with ⟨-, m, -, rfl⟩ | ⟨-, b, rfl⟩ | ⟨-, rfl⟩ | ⟨c, rfl⟩
  · exact .inl rfl
  · exact .inl rfl
  · exact .inl rfl
  · exact .inr ⟨c, rfl⟩

/-- No command draws a free value (R116 under `WRAP`). -/
theorem exec_draws {i : Instr} {s t : State} (h : exec i s = .next t) : t.draws = s.draws := by
  rcases exec_kinds h with ⟨-, m, -, rfl⟩ | ⟨-, b, rfl⟩ | ⟨-, rfl⟩ | ⟨c, rfl⟩ <;> rfl

/-- A command leaves `TX` and byte 13, or is `FINAL` (R28). -/
theorem exec_tx {i : Instr} {s t : State} (h : exec i s = .next t) :
    (t.tx = s.tx ∧ msgByte t.msg 13 = msgByte s.msg 13) ∨
    (i = .final ∧ t.msg = msgSet s.msg 13 (checksum s.msg) ∧ t.tx = s.tx ++ [t.msg]) := by
  rcases exec_kinds h with ⟨-, m, hm, rfl⟩ | ⟨-, b, rfl⟩ | ⟨rfl, rfl⟩ | ⟨c, rfl⟩
  · exact .inl ⟨rfl, hm⟩
  · exact .inl ⟨rfl, rfl⟩
  · exact .inr ⟨rfl, rfl, rfl⟩
  · exact .inl ⟨rfl, rfl⟩

/-- A command that responds with a fault has left `MSG` as it was (R161). -/
theorem exec_fault_msg {i : Instr} {s t : State} {c : Cause} (h : exec i s = .next t)
    (hc : t.response = some (.fault c)) : t.msg = s.msg := by
  rcases exec_kinds h with ⟨-, m, -, rfl⟩ | ⟨-, b, rfl⟩ | ⟨-, rfl⟩ | ⟨d, rfl⟩
  · simp at hc
  · rfl
  · simp at hc
  · rfl

/-- What the response of a command says of the command (R29). -/
theorem exec_response {i : Instr} {s t : State} (h : exec i s = .next t) :
    ∃ r, t.response = some r ∧ (∀ b, r = .data b → i = .chksum ∨ ∃ idx, i = .rd idx) ∧
      (r = .nothing → i ≠ .chksum ∧ ∀ idx, i ≠ .rd idx) := by
  rcases exec_kinds h with ⟨hi, m, -, rfl⟩ | ⟨hi, b, rfl⟩ | ⟨rfl, rfl⟩ | ⟨c, rfl⟩
  · exact ⟨.nothing, rfl, by simp, fun _ => hi⟩
  · exact ⟨.data b, rfl, fun _ _ => hi, by simp⟩
  · exact ⟨.nothing, rfl, by simp, by simp⟩
  · exact ⟨.fault c, rfl, by simp, by simp⟩

/-- Both outcomes are next states, with the same message and response, and they append the same records to the `TX` of
their first states. -/
def SameAnswer (s s' : State) (o o' : Host.Outcome State Fault Refusal) : Prop :=
  ∃ t t' emitted, o = .next t ∧ o' = .next t' ∧ t.msg = t'.msg ∧ t.response = t'.response ∧
    t.tx = s.tx ++ emitted ∧ t'.tx = s'.tx ++ emitted

theorem SameAnswer.of_tx_unchanged {s s' t t' : State} (hmsg : t.msg = t'.msg) (hresponse : t.response = t'.response)
    (htx : t.tx = s.tx) (htx' : t'.tx = s'.tx) : SameAnswer s s' (.next t) (.next t') :=
  ⟨t, t', [], rfl, rfl, hmsg, hresponse, by simp [htx], by simp [htx']⟩

/-- A command finds nothing but the message (R31). -/
theorem exec_sameAnswer (i : Instr) {s s' : State} (hmsg : s.msg = s'.msg) :
    SameAnswer s s' (exec i s) (exec i s') := by
  cases i with
  | init => exact .of_tx_unchanged (by simp [hmsg]) rfl rfl rfl
  | setmode mode =>
    obtain rfl | rfl | rfl | rfl := code_cases mode <;> exact .of_tx_unchanged (by simp [hmsg]) rfl rfl rfl
  | setled led =>
    obtain rfl | rfl | rfl | rfl := code_cases led <;> exact .of_tx_unchanged (by simp [hmsg]) rfl rfl rfl
  | setbat bat => exact .of_tx_unchanged (by simp [hmsg]) rfl rfl rfl
  | setspd spd =>
    cases hn : isNan spd with
    | false =>
      rw [exec_setspd hn, exec_setspd hn]
      exact .of_tx_unchanged (by simp [hmsg]) rfl rfl rfl
    | true =>
      rw [exec_setspd_nan hn, exec_setspd_nan hn]
      exact .of_tx_unchanged hmsg rfl rfl rfl
  | chksum => exact .of_tx_unchanged hmsg (by simp [hmsg]) rfl rfl
  | final => exact ⟨_, _, [msgSet s.msg 13 (checksum s.msg)], rfl, rfl, by simp [hmsg], rfl, rfl, by simp [hmsg]⟩
  | rd idx =>
    by_cases hidx : idx.toNat < 14
    · rw [exec_rd hidx, exec_rd hidx]
      exact .of_tx_unchanged hmsg (by simp [hmsg]) rfl rfl
    · rw [exec_rd_bad (Nat.le_of_not_lt hidx), exec_rd_bad (Nat.le_of_not_lt hidx)]
      exact .of_tx_unchanged hmsg rfl rfl rfl

/-- Every command completes. -/
theorem exec_next (i : Instr) (s : State) : ∃ t, exec i s = .next t := by
  obtain ⟨t, -, -, ht, -⟩ := exec_sameAnswer i (s := s) rfl
  exact ⟨t, ht⟩

/-- The response before a command makes no difference to it (R29). -/
theorem exec_withResponse (i : Instr) (s : State) (r : Option Response) :
    exec i { s with response := r } = exec i s := by
  cases i <;> rfl

/-! ### The bytes a command writes -/

/-- The commands that may change byte `k` of `MSG` (R22). -/
def Writes (i : Instr) : Fin 14 → Prop
  | 4 => i = .init ∨ ∃ mode, i = .setmode mode
  | 6 | 7 => i = .init ∨ ∃ bat, i = .setbat bat
  | 8 | 9 => i = .init ∨ ∃ spd, i = .setspd spd
  | 10 => i = .init ∨ i = .setmode 0 ∨ i = .setled 0 ∨ i = .setled 1
  | 11 => i = .init ∨ i = .setled 0 ∨ i = .setled 1
  | 12 => i = .init ∨ i = .setled 0 ∨ i = .setled 1 ∨ i = .setled 2
  | 13 => i = .final
  | _ => i = .init

theorem init_writes {k : Fin 14} (hk : k ≠ 13) : Writes .init k := by
  fin_cases k <;> simp_all [Writes]

/-- A byte that changes is one the command writes: `INIT` writes all but byte 13, the eight effects after it the bytes
they name, `FINAL` byte 13, and a read or a fault none. -/
theorem writes_of_byte_ne {i : Instr} {s t : State} {k : Fin 14} (h : exec i s = .next t) (hne : t.byte k ≠ s.byte k) :
    Writes i k := by
  rcases exec_cases h with ⟨rfl, rfl⟩ | ⟨rfl, rfl⟩ | ⟨rfl, rfl⟩ | ⟨rfl, rfl⟩ | ⟨rfl, rfl⟩ | ⟨rfl, rfl⟩ | ⟨rfl, rfl⟩ |
    ⟨bat, rfl, rfl⟩ | ⟨spd, rfl, -, rfl⟩ | ⟨rfl, rfl⟩ | ⟨rfl, rfl⟩ | ⟨idx, hidx, rfl, rfl⟩ | ⟨c, rfl, -⟩
  · refine init_writes ?_
    rintro rfl
    exact hne (by simp)
  iterate 8
    · simp only [State.byte_eq, State.respond_msg, State.setByte_msg, State.setHalf_msg, msgByte_msgSet,
        msgByte_msgSetHalf] at hne
      split_ifs at hne <;> subst_vars <;> simp [Writes] at hne ⊢
  · exact absurd rfl hne
  · obtain rfl : 13 = k := by_contra fun hk => hne (by simp [hk])
    rfl
  · exact absurd rfl hne
  · exact absurd rfl hne

theorem byte_eq_of_not_writes {i : Instr} {s t : State} {k : Fin 14} (h : exec i s = .next t) (hi : ¬ Writes i k) :
    msgByte t.msg k = msgByte s.msg k :=
  not_imp_comm.mp (writes_of_byte_ne h) hi

/-! ### The invariant -/

/-- A header byte is written by `INIT` only, which writes the constant (R23). -/
theorem exec_headerConstant {i : Instr} {s t : State} (h : exec i s = .next t) (hs : headerConstant s.msg) :
    headerConstant t.msg := by
  by_cases hi : i = .init
  · subst hi
    cases h
    simp [headerConstant]
  · have h0 := byte_eq_of_not_writes (k := 0) h hi
    have h1 := byte_eq_of_not_writes (k := 1) h hi
    have h2 := byte_eq_of_not_writes (k := 2) h hi
    have h3 := byte_eq_of_not_writes (k := 3) h hi
    have h5 := byte_eq_of_not_writes (k := 5) h hi
    rwa [headerConstant, h0, h1, h2, h3, h5]

/-- The mode byte is written by `INIT` and `SETMODE` only, which write a mode code (R25). -/
theorem exec_modeLegal {i : Instr} {s t : State} (h : exec i s = .next t) (hs : modeLegal s.msg) :
    modeLegal t.msg := by
  by_cases hi : Writes i 4
  · rcases hi with rfl | ⟨mode, rfl⟩
    · cases h
      simp [modeLegal]
    · obtain rfl | rfl | rfl | rfl := code_cases mode <;> cases h
      · simp [modeLegal]
      · simp [modeLegal]
      · simp [modeLegal]
      · exact hs
  · rwa [modeLegal, byte_eq_of_not_writes h hi]

/-- The stamp of `SETMODE` Blank leads from each LED field of R90 to one. -/
theorem stamp_mem_ledValues : ∀ x ∈ ledValues, ((0xF0, x.2.1, x.2.2) : Byte × Byte × Byte) ∈ ledValues := by
  simp [ledValues]

/-- `SETLED` Blink leads from each LED field of R90 to one. -/
theorem blink_mem_ledValues :
    ∀ x ∈ ledValues, ((x.1, x.2.1, x.2.2 ||| 0x80) : Byte × Byte × Byte) ∈ ledValues := by
  simp [ledValues]

/-- The LED field is written by `INIT` and `SETLED` Off and On, which set all of it, and by `SETMODE` Blank and `SETLED`
Blink, which set one byte (R90). -/
theorem exec_ledField {i : Instr} {s t : State} (h : exec i s = .next t) (hs : ledField s.msg ∈ ledValues) :
    ledField t.msg ∈ ledValues := by
  by_cases hi : i = .init ∨ i = .setmode 0 ∨ i = .setled 0 ∨ i = .setled 1 ∨ i = .setled 2
  · rcases hi with rfl | rfl | rfl | rfl | rfl <;> cases h
    · simp [ledField, ledValues]
    · simpa [ledField] using stamp_mem_ledValues _ hs
    · simp [ledField, ledValues]
    · simp [ledField, ledValues]
    · simpa [ledField] using blink_mem_ledValues _ hs
  · simp only [not_or] at hi
    have hunwritten : ¬ Writes i 10 ∧ ¬ Writes i 11 ∧ ¬ Writes i 12 := by
      simp only [Writes, hi, or_self, not_false_eq_true, and_self]
    obtain ⟨h10, h11, h12⟩ := hunwritten
    rwa [ledField, byte_eq_of_not_writes h h10, byte_eq_of_not_writes h h11, byte_eq_of_not_writes h h12]

theorem exec_statusLegal {i : Instr} {s t : State} (h : exec i s = .next t) (hs : statusLegal s.status) :
    statusLegal t.status := by
  rcases exec_status h with ht | ⟨c, ht⟩
  · rwa [ht]
  · rw [ht]
    exact statusLegal_afterFault hs c

/-- Storing the checksum makes it fresh, for byte 13 is no input of it (R32). -/
theorem fresh_msgSet_checksum (m : Message) : fresh (msgSet m 13 (checksum m)) := by
  simp [fresh]

/-- Every command keeps the invariant. -/
theorem Inv.of_exec {i : Instr} {s t : State} (hs : Inv s) (h : exec i s = .next t) : Inv t where
  header := exec_headerConstant h hs.header
  mode := exec_modeLegal h hs.mode
  led := exec_ledField h hs.led
  status := exec_statusLegal h hs.status
  records := by
    rcases exec_tx h with ⟨htx, -⟩ | ⟨-, hmsg, htx⟩
    · rw [htx]
      exact hs.records
    · intro r hr
      rw [htx, List.mem_append, List.mem_singleton] at hr
      rcases hr with hr | rfl
      · exact hs.records r hr
      · exact ⟨(exec_headerConstant h hs.header).1, hmsg ▸ fresh_msgSet_checksum s.msg⟩
  lastRecord := by
    rcases exec_tx h with ⟨htx, hbyte⟩ | ⟨-, -, htx⟩
    · rw [htx, hbyte]
      exact hs.lastRecord
    · simp [htx]
  noRecord := by
    rcases exec_tx h with ⟨htx, hbyte⟩ | ⟨-, -, htx⟩
    · rw [htx, hbyte, exec_draws h]
      exact hs.noRecord
    · simp [htx]

/-- The invariant does not speak of what the host does next. -/
theorem Inv.withInputs {s : State} (hs : Inv s) (es : List HostEvent) : Inv (s.withInputs es) := { hs with }

/-- A fault changes nothing of the invariant but `STATUS`, which stays legal. -/
theorem Inv.raiseFault {s : State} (hs : Inv s) (c : Cause) : Inv (s.raiseFault c) :=
  { hs with status := statusLegal_afterFault hs.status c }

/-- A reset establishes the invariant in whatever state it finds (R33). -/
theorem inv_applyReset (s : State) : Inv s.applyReset where
  header := by simp [headerConstant]
  mode := by simp [modeLegal]
  led := by simp [ledField, ledValues]
  status := by simp [statusLegal]
  records := by simp
  lastRecord := by simp
  noRecord := by simp

/-- Settles O21: what each of the four things a step can do leaves of the invariant. -/
theorem everyStepKeepsTheInvariant : Obligations.EveryStepKeepsTheInvariant := by
  intro s t hs h
  rcases step_cases h with ⟨-, rfl⟩ | ⟨es, -, rfl⟩ | ⟨w, es, i, -, -, hexec⟩ | ⟨w, es, c, -, -, rfl⟩
  · exact hs
  · exact inv_applyReset _
  · exact (hs.withInputs es).of_exec hexec
  · exact (hs.withInputs es).raiseFault c

/-- Settles O20: the reset state is what a reset makes of the state before the first draw. -/
theorem invariantHoldsAtReset : Obligations.InvariantHoldsAtReset := fun es =>
  inv_applyReset { State.reset with inputs := es, draws := 0 }

/-! ### Reachable states -/

theorem run_induction {P : State → Prop} (hstep : ∀ s t, P s → step s = .next t → P t) {k : Nat} {s t : State}
    (hs : P s) (hrun : Host.Core.run Sys2Proof.core k s = .next t) : P t := by
  induction k generalizing s with
  | zero =>
    cases hrun
    exact hs
  | succ k ih =>
    simp only [Host.Core.run] at hrun
    split at hrun
    next u hu => exact ih (hstep s u hs hu) hrun
    next => cases hrun
    next => cases hrun

theorem Reachable.induction {P : State → Prop} (hreset : ∀ es, P (State.reset.withInputs es))
    (hstep : ∀ s t, P s → step s = .next t → P t) {s : State} (hs : Reachable s) : P s := by
  obtain ⟨es, k, hrun⟩ := hs
  exact run_induction hstep (hreset es) hrun

theorem Reachable.inv {s : State} (hs : Reachable s) : Inv s :=
  hs.induction invariantHoldsAtReset everyStepKeepsTheInvariant

/-- The values of bytes 10, 11 and 12 (R25), from the LED fields of R90. -/
theorem ledValues_bytes : ∀ x ∈ ledValues,
    (x.1 = 0x00 ∨ x.1 = 0xF0 ∨ x.1 = 0xF1) ∧ (x.2.1 = 0x00 ∨ x.2.1 = 0x80) ∧ (x.2.2 = 0x00 ∨ x.2.2 = 0x80) := by
  simp [ledValues]

/-- Settles O22: the invariant holds in every reachable state, and a record's byte 13 is its checksum. -/
theorem reachableMessageBytes : Obligations.ReachableMessageBytes := by
  intro s hs
  obtain ⟨header, mode, led, -, records, lastRecord, noRecord⟩ := hs.inv
  obtain ⟨h10, h11, h12⟩ := ledValues_bytes _ led
  refine ⟨header, mode, h10, h11, h12, noRecord, fun r hr => ?_⟩
  obtain ⟨-, hfresh⟩ := records r (List.mem_of_getLast? hr)
  exact (lastRecord r hr).trans hfresh

/-! ### One step -/

/-- Settles O12: a recorded fault is kept by a further one, and nothing else writes `STATUS` but a reset. -/
theorem recordedFaultStaysUntilReset : Obligations.RecordedFaultStaysUntilReset := by
  intro s t h hreset hfault
  rcases step_cases h with ⟨-, rfl⟩ | ⟨es, hin, -⟩ | ⟨w, es, i, -, -, hexec⟩ | ⟨w, es, c, -, -, rfl⟩
  · rfl
  · exact absurd hin (hreset es)
  · rcases exec_status hexec with ht | ⟨c, ht⟩
    · exact ht
    · exact ht.trans (StatusReg.afterFault_of_fault hfault c)
  · exact StatusReg.afterFault_of_fault hfault c

/-- Settles O55: of the commands `FINAL` alone appends, and what it appends is `MSG` as it leaves it. -/
theorem transmitStreamOnlyGrows : Obligations.TransmitStreamOnlyGrows := by
  refine ⟨rfl, fun s t h hreset => ?_⟩
  rcases step_cases h with ⟨-, rfl⟩ | ⟨es, hin, -⟩ | ⟨w, es, i, hin, hdecode, hexec⟩ | ⟨w, es, c, -, -, rfl⟩
  · exact .inl rfl
  · exact absurd hin (hreset es)
  · rcases exec_tx hexec with ⟨htx, -⟩ | ⟨rfl, -, htx⟩
    · exact .inl htx
    · exact .inr ⟨htx, w, es, hin, hdecode⟩
  · exact .inl rfl

/-- Settles O5, by what stands on the command port. -/
theorem stepRunsTheDecodedCommand : Obligations.StepRunsTheDecodedCommand := by
  refine fun s w rest => ⟨step_idle, fun hin => ⟨fun i hdecode => ?_, fun c hdecode => ?_⟩⟩
  · exact (step_command hin).trans (execWord_ok hdecode _)
  · exact (step_command hin).trans (execWord_refused hdecode _)

/-! ### One command -/

/-- Settles O13: `STATUS`, `TX` and the response before are in no command's inputs. -/
theorem commandsDependOnTheMessageAlone : Obligations.CommandsDependOnTheMessageAlone :=
  fun i _ _ hmsg => exec_sameAnswer i hmsg

/-- Settles O14: a word the decoder refuses answers its fault, another what its command answers. -/
theorem everyCommandAnswersOneResponse : Obligations.EveryCommandAnswersOneResponse := by
  intro w s
  cases hdecode : decode w with
  | ok i =>
    simp only [execWord_ok hdecode, Decoded.ok.injEq]
    obtain ⟨t, ht⟩ := exec_next i s
    obtain ⟨r, hr, hdata, hnothing⟩ := exec_response ht
    exact ⟨⟨t, r, ht, hr, hdata, fun hr => ⟨i, rfl, hnothing hr⟩⟩, exec_withResponse i s⟩
  | refused c =>
    simp only [execWord_refused hdecode]
    exact ⟨⟨_, .fault c, rfl, rfl, by simp, by simp⟩, fun _ => rfl⟩

/-- Settles O16: the table of R22 is `Writes`. -/
theorem eachByteIsWrittenByItsCommandsOnly : Obligations.EachByteIsWrittenByItsCommandsOnly := by
  intro i s t h
  refine ⟨?_, writes_of_byte_ne h, ?_, ?_, writes_of_byte_ne h, writes_of_byte_ne h, writes_of_byte_ne h,
    writes_of_byte_ne h, fun c => exec_fault_msg h⟩
  · rintro (hne | hne | hne | hne | hne)
    all_goals exact writes_of_byte_ne h hne
  · rintro (hne | hne)
    all_goals exact writes_of_byte_ne h hne
  · rintro (hne | hne)
    all_goals exact writes_of_byte_ne h hne

/-! ### The checksum's freshness -/

theorem checksum_defaultMessage (c : Byte) : checksum (defaultMessage c) = 0xF4 := by
  simp [checksum]

/-- `CHKSUM` and `RD` write nothing, whether they answer or fault. -/
theorem exec_read_msg {i : Instr} {s t : State} (hi : i = .chksum ∨ ∃ idx, i = .rd idx) (h : exec i s = .next t) :
    t.msg = s.msg := by
  rcases exec_kinds h with ⟨⟨hchksum, hrd⟩, -⟩ | ⟨-, b, rfl⟩ | ⟨rfl, -⟩ | ⟨c, rfl⟩
  · rcases hi with hi | ⟨idx, hi⟩
    · exact absurd hi hchksum
    · exact absurd hi (hrd idx)
  · rfl
  · simp at hi
  · rfl

/-- From this state, whose checksum is fresh, each of the writing commands of R32 makes it stale: the default message
but for mode Blank. -/
def freshBlank : State := State.reset.withMsg (msgSet (defaultMessage 0xF5) 4 0)

/-- Settles O56: `FINAL` stores the checksum and alone emits, the reads write nothing, and the writing commands are run
from `freshBlank`. -/
theorem checksumFreshness : Obligations.ChecksumFreshness := by
  refine ⟨fun s t h => ?_, fun s t i hi h => ?_, fun i hi => ?_, fun s t i h htx => ?_, ?_⟩
  · cases h
    exact fresh_msgSet_checksum s.msg
  · rw [exec_read_msg hi h]
  · refine ⟨freshBlank, ?_⟩
    rcases hi with rfl | rfl | rfl | rfl | rfl
    all_goals exact ⟨_, by decide, rfl, by decide⟩
  · rcases exec_tx h with ⟨htx', -⟩ | ⟨-, hmsg, htx'⟩
    · exact absurd htx' htx
    · exact ⟨t.msg, htx', hmsg ▸ fresh_msgSet_checksum s.msg⟩
  · have hreset : checksum State.reset.msg = 0xF4 := checksum_defaultMessage _
    rw [fresh, hreset]
    rfl

/-! ### `STATUS` on its port, and the reset values -/

/-- The byte of R27 by its fields. -/
theorem toByte_fields (r : StatusReg) :
    r.toByte.getLsbD 7 = r.fault ∧ r.toByte.extractLsb' 4 3 = 0 ∧ r.toByte.extractLsb' 0 4 = r.cause := by
  obtain ⟨fault, cause⟩ := r
  revert fault cause
  decide

theorem statusOut_firstFault {s : State} (h : s.status.fault = false) (c : Cause) :
    (s.raiseFault c).statusOut = StatusReg.toByte { fault := true, cause := c.code } :=
  congrArg StatusReg.toByte (StatusReg.afterFault_of_noFault h c)

/-- Settles O11, by the fields of the register and by what a first fault makes of them. -/
theorem statusByteLayout : Obligations.StatusByteLayout := by
  intro s
  obtain ⟨hfault, hzero, hcause⟩ := toByte_fields s.status
  refine ⟨hfault, hzero, hcause, fun h => ?_⟩
  simp only [statusOut_firstFault h]
  decide

/-- Settles O17: the default message's bytes, and the other fields as `State.reset` writes them. -/
theorem resetStateHoldsTheResetValues : Obligations.ResetStateHoldsTheResetValues := by
  have hmsg : State.reset.msg = defaultMessage (Config.resetChk 0) := rfl
  simp only [Obligations.ResetStateHoldsTheResetValues, State.byte_eq, State.half_eq, hmsg]
  simp [State.reset, State.statusOut, StatusReg.toByte]

end Sys2Proof.Machine
end

section
/-! The memory rules (20_memory.md): commands are idempotent on `MSG` and the reads change nothing (R47); a 16-bit field
is big-endian (R41, R43). -/

namespace Sys2Proof.Machine

/-! ### Writing what is there already -/

theorem msgSet_eq_self {m : Message} {i : Fin 14} {v : Byte} (h : msgByte m i = v) : msgSet m i v = m := by
  subst h
  exact Vector.set_getElem_self i.isLt

theorem msgSetHalf_eq_self {m : Message} {i : Fin 13} {v : Half} (h : msgHalf m i = v) : msgSetHalf m i v = m := by
  subst h
  have hhigh : msgSet m i.castSucc ((msgHalf m i).extractLsb' 8 8) = m :=
    msgSet_eq_self (extract_append_high _ _).symm
  rw [msgSetHalf, hhigh]
  exact msgSet_eq_self (extract_append_low _ _).symm

/-! ### Idempotence -/

/-- A command run again finds each byte it writes as it is about to write it. -/
theorem exec_twice_msg {i : Instr} {s t u : State} (ht : exec i s = .next t) (hu : exec i t = .next u) :
    u.msg = t.msg := by
  cases i with
  | init =>
    cases ht
    cases hu
    simp
  | setmode mode =>
    obtain rfl | rfl | rfl | rfl := code_cases mode
    all_goals
      cases ht
      cases hu
      simp [msgSet_eq_self]
  | setled led =>
    obtain rfl | rfl | rfl | rfl := code_cases led
    all_goals
      cases ht
      cases hu
      simp [msgSet_eq_self, BitVec.or_assoc]
  | setbat bat =>
    cases ht
    cases hu
    simp [msgSetHalf_eq_self]
  | setspd spd =>
    cases hn : isNan spd with
    | false =>
      rw [exec_setspd hn] at ht hu
      cases ht
      cases hu
      simp [msgSetHalf_eq_self]
    | true =>
      rw [exec_setspd_nan hn] at hu
      cases hu
      rfl
  | chksum => exact exec_read_msg (.inl rfl) hu
  | final =>
    cases ht
    cases hu
    simp [msgSet_eq_self]
  | rd idx => exact exec_read_msg (.inr ⟨idx, rfl⟩) hu

/-- `FINAL` appends the message it leaves (R135). -/
theorem exec_final_tx {s t : State} (h : exec .final s = .next t) : t.tx = s.tx ++ [t.msg] := by
  cases h
  rfl

/-- Settles O24: the second `FINAL` emits the message the first one left, for it leaves that message. -/
theorem commandsAreIdempotentOnTheMessage : Obligations.CommandsAreIdempotentOnTheMessage := by
  refine ⟨fun i s => ?_, fun s t h => ?_, fun idx s t hidx h => ?_, fun s => ?_⟩
  · obtain ⟨t, ht⟩ := exec_next i s
    obtain ⟨u, hu⟩ := exec_next i t
    exact ⟨t, u, ht, hu, exec_twice_msg ht hu⟩
  · cases h
    simp [keepsAllButMsg]
  · rw [exec_rd hidx] at h
    cases h
    simp [keepsAllButMsg]
  · obtain ⟨t, ht⟩ := exec_next .final s
    obtain ⟨u, hu⟩ := exec_next .final t
    refine ⟨t, u, t.msg, ht, hu, ?_⟩
    rw [exec_final_tx hu, exec_twice_msg ht hu, exec_final_tx ht, List.append_assoc]
    rfl

/-! ### The battery field -/

/-- The operand of `SETBAT` modulo 2^16 is its low half (R91). -/
theorem trunc16_toInt (bat : Arg) : trunc16 bat.toInt = bat.setWidth 16 :=
  BitVec.signExtend_eq_setWidth_of_le bat (by decide)

/-- Settles O58: bytes 6 and 7 are the two bytes of the operand's low half. -/
theorem batteryReadsBackBigEndian : Obligations.BatteryReadsBackBigEndian := by
  intro bat s
  refine ⟨_, _, _, exec_setbat bat s, exec_rd (by decide) _, exec_rd (by decide) _, ?_, ?_, rfl⟩
  · have hhigh : (bat.setWidth 16).extractLsb' 8 8 = bat.extractLsb' 8 8 :=
      BitVec.extractLsb'_setWidth_of_le (by decide)
    simp [trunc16_toInt, hhigh]
  · have hlow : (bat.setWidth 16).extractLsb' 0 8 = bat.extractLsb' 0 8 :=
      BitVec.extractLsb'_setWidth_of_le (by decide)
    simp [trunc16_toInt, hlow]

end Sys2Proof.Machine
end

section
/-! The encoding (30_encoding.md): the decoder by opcode and the encoder as its inverse (R60 to R69), what a word that
is no command raises (R65 to R67), the assembler's operands (R70), and the spelling of words (R72). -/

namespace Sys2Proof.Machine

/-! ### The decoder, by the opcode map of R64 -/

section
variable {w : CmdWord}

theorem decode_init (h : opField w = 0x01) : decode w = decodeNoOperand (argField w) .init := by simp [decode, h]
theorem decode_setmode (h : opField w = 0x02) : decode w = decodeCode (argField w) .badMode .setmode := by
  simp [decode, h]
theorem decode_setled (h : opField w = 0x03) : decode w = decodeCode (argField w) .badLed .setled := by
  simp [decode, h]
theorem decode_setbat (h : opField w = 0x04) : decode w = .ok (.setbat (argField w)) := by simp [decode, h]
theorem decode_setspd (h : opField w = 0x05) : decode w = .ok (.setspd (argField w)) := by simp [decode, h]
theorem decode_chksum (h : opField w = 0x06) : decode w = decodeNoOperand (argField w) .chksum := by simp [decode, h]
theorem decode_final (h : opField w = 0x07) : decode w = decodeNoOperand (argField w) .final := by simp [decode, h]
theorem decode_rd (h : opField w = 0x08) : decode w = decodeIndex (argField w) := by simp [decode, h]

theorem decode_opcodeIllegal (h : opcodeIllegal w) : decode w = .refused .illegalOpcode := by
  have hrange : (opField w).toNat = 0 ∨ 9 ≤ (opField w).toNat := h
  unfold decode
  split
  iterate 8 omega
  rfl

end

/-- A word's opcode is one of the map's or illegal (R64, R65). -/
theorem opcode_cases (w : CmdWord) :
    opField w = 0x01 ∨ opField w = 0x02 ∨ opField w = 0x03 ∨ opField w = 0x04 ∨ opField w = 0x05 ∨ opField w = 0x06 ∨
      opField w = 0x07 ∨ opField w = 0x08 ∨ opcodeIllegal w := by
  unfold opcodeIllegal
  bv_omega

/-! ### Which arguments the formats of R62 admit -/

/-- A vector is a zero-extended `x` if and only if its high part is zero and its low part is `x`. -/
theorem eq_setWidth_iff {n m : Nat} {v : BitVec (n + m)} {x : BitVec m} :
    v = x.setWidth (n + m) ↔ v.extractLsb' m n = 0 ∧ v.extractLsb' 0 m = x := by
  have hx : x.setWidth (n + m) = (0 : BitVec n) ++ x := by
    apply BitVec.eq_of_toNat_eq
    rw [BitVec.toNat_setWidth_of_le (Nat.le_add_left m n)]
    simp [BitVec.toNat_append]
  constructor
  · rintro rfl
    rw [hx]
    exact ⟨extract_append_high _ _, extract_append_low _ _⟩
  · rintro ⟨hhigh, hlow⟩
    rw [← append_extract v, hhigh, hlow, hx]

theorem decodeNoOperand_eq_ok_iff {a : Arg} {i j : Instr} : decodeNoOperand a i = .ok j ↔ a = 0 ∧ i = j := by
  unfold decodeNoOperand
  split <;> simp_all

theorem decodeCode_eq_ok_iff {a : Arg} {bad : Cause} {f : BitVec 2 → Instr} {j : Instr} :
    decodeCode a bad f = .ok j ↔ ∃ code, code ≠ 3 ∧ a = code.setWidth 32 ∧ f code = j := by
  simp only [decodeCode, eq_setWidth_iff (n := 30) (m := 2)]
  split
  · simp_all
  · split <;> simp_all

theorem decodeIndex_eq_ok_iff {a : Arg} {j : Instr} :
    decodeIndex a = .ok j ↔ ∃ idx : BitVec 4, idx.toNat < 14 ∧ a = idx.setWidth 32 ∧ .rd idx = j := by
  simp only [decodeIndex, eq_setWidth_iff (n := 28) (m := 4)]
  split
  · simp_all
  · split <;> simp_all

@[simp] theorem wf_setmode_iff {mode : BitVec 2} : (Instr.setmode mode).wf = true ↔ mode ≠ 3 := bne_iff_ne
@[simp] theorem wf_setled_iff {led : BitVec 2} : (Instr.setled led).wf = true ↔ led ≠ 3 := bne_iff_ne
@[simp] theorem wf_rd_iff {idx : BitVec 4} : (Instr.rd idx).wf = true ↔ idx.toNat < 14 := decide_eq_true_iff

/-! ### Decoding and encoding -/

/-- Settles O1, by the format of each command's opcode. -/
theorem decodeOfEncodeIsTheCommand : Obligations.DecodeOfEncodeIsTheCommand := by
  intro i hwf
  have harg : argField (encode i) = i.argument := argField_commandWord _ _
  have hop : opField (encode i) = i.opcode := opField_commandWord _ _
  cases i with
  | init => exact (decode_init hop).trans (decodeNoOperand_eq_ok_iff.mpr ⟨harg, rfl⟩)
  | setmode mode =>
    exact (decode_setmode hop).trans (decodeCode_eq_ok_iff.mpr ⟨mode, wf_setmode_iff.mp hwf, harg, rfl⟩)
  | setled led =>
    exact (decode_setled hop).trans (decodeCode_eq_ok_iff.mpr ⟨led, wf_setled_iff.mp hwf, harg, rfl⟩)
  | setbat bat => exact (decode_setbat hop).trans (congrArg (Decoded.ok <| .setbat ·) harg)
  | setspd spd => exact (decode_setspd hop).trans (congrArg (Decoded.ok <| .setspd ·) harg)
  | chksum => exact (decode_chksum hop).trans (decodeNoOperand_eq_ok_iff.mpr ⟨harg, rfl⟩)
  | final => exact (decode_final hop).trans (decodeNoOperand_eq_ok_iff.mpr ⟨harg, rfl⟩)
  | rd idx => exact (decode_rd hop).trans (decodeIndex_eq_ok_iff.mpr ⟨idx, wf_rd_iff.mp hwf, harg, rfl⟩)

/-- The command a word decodes to is well formed and has the word's fields. -/
theorem fields_of_decode {w : CmdWord} {i : Instr} (h : decode w = .ok i) :
    i.wf = true ∧ i.opcode = opField w ∧ i.argument = argField w := by
  rcases opcode_cases w with hop | hop | hop | hop | hop | hop | hop | hop | hop
  · obtain ⟨harg, rfl⟩ := decodeNoOperand_eq_ok_iff.mp ((decode_init hop).symm.trans h)
    exact ⟨rfl, hop.symm, harg.symm⟩
  · obtain ⟨code, hcode, harg, rfl⟩ := decodeCode_eq_ok_iff.mp ((decode_setmode hop).symm.trans h)
    exact ⟨wf_setmode_iff.mpr hcode, hop.symm, harg.symm⟩
  · obtain ⟨code, hcode, harg, rfl⟩ := decodeCode_eq_ok_iff.mp ((decode_setled hop).symm.trans h)
    exact ⟨wf_setled_iff.mpr hcode, hop.symm, harg.symm⟩
  · cases (decode_setbat hop).symm.trans h
    exact ⟨rfl, hop.symm, rfl⟩
  · cases (decode_setspd hop).symm.trans h
    exact ⟨rfl, hop.symm, rfl⟩
  · obtain ⟨harg, rfl⟩ := decodeNoOperand_eq_ok_iff.mp ((decode_chksum hop).symm.trans h)
    exact ⟨rfl, hop.symm, harg.symm⟩
  · obtain ⟨harg, rfl⟩ := decodeNoOperand_eq_ok_iff.mp ((decode_final hop).symm.trans h)
    exact ⟨rfl, hop.symm, harg.symm⟩
  · obtain ⟨idx, hidx, harg, rfl⟩ := decodeIndex_eq_ok_iff.mp ((decode_rd hop).symm.trans h)
    exact ⟨wf_rd_iff.mpr hidx, hop.symm, harg.symm⟩
  · cases (decode_opcodeIllegal hop).symm.trans h

/-- Settles O2: a word is put together from its fields, and these are the command's. -/
theorem decodedWordIsTheCommandsOnlyWord : Obligations.DecodedWordIsTheCommandsOnlyWord := by
  intro w i h
  obtain ⟨hwf, hop, harg⟩ := fields_of_decode h
  refine ⟨hwf, ?_⟩
  rw [encode, hop, harg, commandWord_fields]

/-- Settles O4: each word is the encoding of its command. -/
theorem writtenOutWordsDecode : Obligations.WrittenOutWordsDecode :=
  have decode_encode := decodeOfEncodeIsTheCommand
  ⟨decode_encode .init rfl, decode_encode (.setmode 2) rfl, decode_encode (.setled 2) rfl,
    decode_encode (.setbat 999) rfl, decode_encode (.setspd 0x41CC0000) rfl, decode_encode .chksum rfl,
    decode_encode .final rfl, decode_encode (.rd 13) rfl⟩

/-! ### Running a word -/

section
variable {w : CmdWord}

theorem execWord_noOperand {i : Instr} (h : decode w = decodeNoOperand (argField w) i) (s : State) :
    execWord w s = if argField w ≠ 0 then .next (s.raiseFault .reservedArg) else exec i s := by
  simp only [execWord, h, decodeNoOperand, ne_eq, ite_not]
  split_ifs <;> rfl

theorem execWord_code {bad : Cause} {f : BitVec 2 → Instr} (h : decode w = decodeCode (argField w) bad f) (s : State) :
    execWord w s =
      if (argField w).extractLsb' 2 30 ≠ 0 then .next (s.raiseFault .reservedArg)
      else if (argField w).extractLsb' 0 2 = 3 then .next (s.raiseFault bad)
      else exec (f ((argField w).extractLsb' 0 2)) s := by
  simp only [execWord, h, decodeCode]
  split_ifs <;> rfl

theorem execWord_index (h : decode w = decodeIndex (argField w)) (s : State) :
    execWord w s =
      if (argField w).extractLsb' 4 28 ≠ 0 then .next (s.raiseFault .reservedArg)
      else if 14 ≤ ((argField w).extractLsb' 0 4).toNat then .next (s.raiseFault .badIndex)
      else exec (.rd ((argField w).extractLsb' 0 4)) s := by
  simp only [execWord, h, decodeIndex]
  split_ifs <;> rfl

end

/-- Settles O3, by the format of each opcode. -/
theorem wordsRunAsTheDecoderPseudocodeSays : Obligations.WordsRunAsTheDecoderPseudocodeSays := fun _ s =>
  ⟨fun hop => execWord_noOperand (decode_init hop) s, fun hop => execWord_code (decode_setmode hop) s,
    fun hop => execWord_code (decode_setled hop) s, fun hop => execWord_ok (decode_setbat hop) s,
    fun hop => execWord_ok (decode_setspd hop) s, fun hop => execWord_noOperand (decode_chksum hop) s,
    fun hop => execWord_noOperand (decode_final hop) s, fun hop => execWord_index (decode_rd hop) s,
    fun hop => execWord_refused (decode_opcodeIllegal hop) s⟩

/-! ### Words that are no command -/

/-- Settles O6: the decoder refuses the word, and a fault leaves all but `STATUS` and the response. -/
theorem illegalOpcodeFaultsAndChangesNothingElse : Obligations.IllegalOpcodeFaultsAndChangesNothingElse :=
  fun _ s hop => ⟨_, execWord_refused (decode_opcodeIllegal hop) s, rfl, rfl, rfl, rfl, rfl⟩

theorem decode_reservedBitSet {w : CmdWord} (h : reservedBitSet w) : decode w = .refused .reservedArg := by
  rcases h with ⟨hop | hop | hop, harg⟩ | ⟨hop | hop, harg⟩ | ⟨hop, harg⟩
  · exact (decode_init hop).trans (if_neg harg)
  · exact (decode_chksum hop).trans (if_neg harg)
  · exact (decode_final hop).trans (if_neg harg)
  · exact (decode_setmode hop).trans (if_pos harg)
  · exact (decode_setled hop).trans (if_pos harg)
  · exact (decode_rd hop).trans (if_pos harg)

/-- Formats B and S have no must-be-zero bit (R62). -/
theorem not_reservedBitSet {w : CmdWord} (hop : opField w = 0x04 ∨ opField w = 0x05) : ¬ reservedBitSet w := by
  rcases hop with hop | hop <;> simp [reservedBitSet, hop]

/-- `RESERVED_ARG` is the decoder's fault: no command raises it (R163). -/
theorem exec_response_ne_reservedArg {i : Instr} {s t : State} (h : exec i s = .next t) :
    t.response ≠ some (.fault .reservedArg) := by
  rcases exec_cases h with ⟨-, rfl⟩ | ⟨-, rfl⟩ | ⟨-, rfl⟩ | ⟨-, rfl⟩ | ⟨-, rfl⟩ | ⟨-, rfl⟩ | ⟨-, rfl⟩ | ⟨-, -, rfl⟩ |
    ⟨-, -, -, rfl⟩ | ⟨-, rfl⟩ | ⟨-, rfl⟩ | ⟨-, -, -, rfl⟩ | ⟨c, rfl, hc⟩
  iterate 12 simp
  rcases hc with ⟨-, rfl⟩ | ⟨-, rfl⟩ | ⟨-, -, -, rfl⟩ | ⟨-, -, -, rfl⟩ <;> simp

/-- Settles O7: the decoder refuses a reserved bit, and in formats B and S it passes every word on. -/
theorem reservedBitFaults : Obligations.ReservedBitFaults := by
  refine fun w s => ⟨fun h => execWord_refused (decode_reservedBitSet h) s, fun hop => ⟨not_reservedBitSet hop, ?_⟩⟩
  rcases hop with hop | hop
  · rw [execWord_ok (decode_setbat hop)]
    exact fun _ => exec_response_ne_reservedArg
  · rw [execWord_ok (decode_setspd hop)]
    exact fun _ => exec_response_ne_reservedArg

theorem decodeCode_refused {a : Arg} (hclean : a.extractLsb' 2 30 = 0) (hcode : a.extractLsb' 0 2 = 3) (bad : Cause)
    (f : BitVec 2 → Instr) : decodeCode a bad f = .refused bad := by
  simp [decodeCode, hclean, hcode]

theorem decodeIndex_refused {a : Arg} (hclean : a.extractLsb' 4 28 = 0) (hidx : 14 ≤ (a.extractLsb' 0 4).toNat) :
    decodeIndex a = .refused .badIndex := by
  rw [decodeIndex, if_neg (not_not.mpr hclean), if_pos hidx]

/-- Settles O8: with clean reserved bits the decoder looks at the operand, and at a NaN `SETSPD` itself does. -/
theorem operandOutsideItsDomainFaults : Obligations.OperandOutsideItsDomainFaults := by
  refine fun w s hclean => ⟨fun hop hcode => ?_, fun hop hcode => ?_, fun hop hidx => ?_, fun hop hnan => ?_⟩
  · have hzero : (argField w).extractLsb' 2 30 = 0 := by simpa [reservedBitSet, hop] using hclean
    exact execWord_refused ((decode_setmode hop).trans (decodeCode_refused hzero hcode _ _)) s
  · have hzero : (argField w).extractLsb' 2 30 = 0 := by simpa [reservedBitSet, hop] using hclean
    exact execWord_refused ((decode_setled hop).trans (decodeCode_refused hzero hcode _ _)) s
  · have hzero : (argField w).extractLsb' 4 28 = 0 := by simpa [reservedBitSet, hop] using hclean
    have hrange : 14 ≤ ((argField w).extractLsb' 0 4).toNat := by rcases hidx with h | h <;> simp [h]
    exact execWord_refused ((decode_rd hop).trans (decodeIndex_refused hzero hrange)) s
  · exact (execWord_ok (decode_setspd hop) s).trans (exec_setspd_nan hnan s)

/-! ### The assembler (R70) -/

theorem parseMode_ne_bad {cs : List Char} {mode : BitVec 2} (h : parseMode cs = some mode) : mode ≠ 3 := by
  unfold parseMode at h
  split_ifs at h <;> cases h <;> decide

theorem parseLed_ne_bad {cs : List Char} {led : BitVec 2} (h : parseLed cs = some led) : led ≠ 3 := by
  unfold parseLed at h
  split_ifs at h <;> cases h <;> decide

theorem parseIndex_lt {cs : List Char} {idx : BitVec 4} (h : parseIndex cs = some idx) : idx.toNat < 14 := by
  obtain ⟨n, -, hn⟩ := Option.bind_eq_some_iff.mp h
  split_ifs at hn with hle
  cases hn
  rw [BitVec.toNat_ofNat]
  omega

/-- A line of one command with an operand gives a well-formed command if its operand's parser admits only such. -/
theorem wf_of_map_operand {α : Type} {parsed : Option α} {f : α → Instr} {is : List Instr}
    (hwf : ∀ x, parsed = some x → (f x).wf = true) (h : (parsed.map fun x => [f x]) = some is) :
    ∀ i ∈ is, i.wf = true := by
  obtain ⟨x, hx, rfl⟩ := Option.map_eq_some_iff.mp h
  simpa using hwf x hx

/-- Every command the assembler accepts is well formed. -/
theorem assembleLine_wf {line : List Char} {is : List Instr} (h : assembleLine line = some is) :
    ∀ i ∈ is, i.wf = true := by
  unfold assembleLine at h
  split at h
  · cases h
    simp
  · split_ifs at h <;> cases h <;> decide
  · split_ifs at h
    · exact wf_of_map_operand (fun x hx => wf_setmode_iff.mpr (parseMode_ne_bad hx)) h
    · exact wf_of_map_operand (fun x hx => wf_setled_iff.mpr (parseLed_ne_bad hx)) h
    · exact wf_of_map_operand (fun x hx => rfl) h
    · exact wf_of_map_operand (fun x hx => rfl) h
    · exact wf_of_map_operand (fun x hx => wf_rd_iff.mpr (parseIndex_lt hx)) h
  · cases h

/-- Settles O59: the words are encodings of well-formed commands. -/
theorem assemblerEmitsOnlyCommands : Obligations.AssemblerEmitsOnlyCommands := by
  intro line words h w hw
  obtain ⟨is, his, rfl⟩ := Option.map_eq_some_iff.mp h
  obtain ⟨i, hi, rfl⟩ := List.mem_map.mp hw
  exact ⟨i, decodeOfEncodeIsTheCommand i (assembleLine_wf his i hi)⟩

/-! ### The spelling of a word (R72) -/

/-- The sixteen digits, by their values. -/
theorem hexDigit_eq : ∀ d < 16, "0123456789ABCDEF".toList[d]? = some (hexDigit d) := by decide

theorem hexDigit_injective : ∀ d < 16, ∀ e < 16, hexDigit d = hexDigit e → d = e := by decide

@[simp] theorem length_hexDigits (count n : Nat) : (hexDigits count n).length = count := by
  induction count generalizing n with
  | zero => rfl
  | succ count ih => simp [hexDigits, ih]

/-- Digit `k` of `count`, the most significant first. -/
theorem getElem?_hexDigits {count k : Nat} (n : Nat) (hk : k < count) :
    (hexDigits count n)[k]? = some (hexDigit (n / 16 ^ (count - 1 - k) % 16)) := by
  induction count generalizing n with
  | zero => omega
  | succ count ih =>
    rw [hexDigits]
    rcases Nat.lt_succ_iff_lt_or_eq.mp hk with hlt | rfl
    · have hexp : count + 1 - 1 - k = count - 1 - k + 1 := by omega
      rw [List.getElem?_append_left (by simpa using hlt), ih _ hlt, hexp, Nat.pow_succ', Nat.div_div_eq_div_mul]
    · simp

/-- The last `count` digits determine a number modulo `16 ^ count`. -/
theorem mod_eq_of_hexDigits_eq {count n m : Nat} (h : hexDigits count n = hexDigits count m) :
    n % 16 ^ count = m % 16 ^ count := by
  induction count generalizing n m with
  | zero => rw [Nat.pow_zero, Nat.mod_one, Nat.mod_one]
  | succ count ih =>
    obtain ⟨hinit, hlast⟩ := List.append_inj' h rfl
    have hdigit : n % 16 = m % 16 :=
      hexDigit_injective _ (Nat.mod_lt n (by decide)) _ (Nat.mod_lt m (by decide)) (List.singleton_inj.mp hlast)
    rw [Nat.pow_succ', Nat.mod_mul, Nat.mod_mul, hdigit, ih hinit]

/-- A vector of whole hexadecimal digits is determined by them. -/
theorem eq_of_hexDigits_toNat_eq {count : Nat} {x y : BitVec (4 * count)}
    (h : hexDigits count x.toNat = hexDigits count y.toNat) : x = y := by
  have hmod := mod_eq_of_hexDigits_eq h
  have hpow : 16 ^ count = 2 ^ (4 * count) := by rw [Nat.pow_mul]
  rw [hpow, Nat.mod_eq_of_lt x.isLt, Nat.mod_eq_of_lt y.isLt] at hmod
  exact BitVec.eq_of_toNat_eq hmod

theorem getElem?_hexDigits_eq_digit {count k : Nat} (n : Nat) (hk : k < count) :
    (hexDigits count n)[k]? = "0123456789ABCDEF".toList[n / 16 ^ (count - 1 - k) % 16]? :=
  (getElem?_hexDigits n hk).trans (hexDigit_eq _ (Nat.mod_lt _ (by decide))).symm

/-- Settles O60: the two fields are spelled digit by digit, and their digits determine them. -/
theorem spellingDeterminesTheWord : Obligations.SpellingDeterminesTheWord := by
  refine ⟨fun w => ⟨by simp [spellWord], ?_, fun k hk => ?_, fun k hk => ?_⟩, fun w w' h => ?_⟩
  · rw [spellWord, List.getElem?_append_right (by simp)]
    simp
  · rw [spellWord, List.getElem?_append_left (by simpa using hk)]
    exact getElem?_hexDigits_eq_digit _ hk
  · rw [spellWord, List.getElem?_append_right (by simp; omega), length_hexDigits, show 3 + k - 2 = k + 1 by omega,
      List.getElem?_cons_succ]
    exact getElem?_hexDigits_eq_digit _ hk
  · obtain ⟨hop, hrest⟩ := List.append_inj h (by simp)
    have harg := List.tail_eq_of_cons_eq hrest
    have hopField : opField w = opField w' := eq_of_hexDigits_toNat_eq (count := 2) hop
    have hargField : argField w = argField w' := eq_of_hexDigits_toNat_eq (count := 8) harg
    rw [← commandWord_fields w, hopField, hargField, commandWord_fields]

end Sys2Proof.Machine
end

section
/-! The field packer (40_field_packer.md): what `INIT`, `SETMODE`, `SETLED` and `SETBAT` write and leave (R80 to R91),
what takes the Blank stamp and the blink flag away (R84, R89), the LED fields the block takes (R90), the battery field
modulo 2^16 (R93), and the speed sentinel (R81). -/

namespace Sys2Proof.Machine

/-! ### Running a word -/

/-- The word of a well-formed command runs it (R69). -/
theorem execWord_encode {i : Instr} (hwf : i.wf = true) (s : State) : execWord (encode i) s = exec i s :=
  execWord_ok (decodeOfEncodeIsTheCommand i hwf) s

theorem reservedBitSet_commandWord_init {a : Arg} (h : a ≠ 0) : reservedBitSet (commandWord 0x01 a) :=
  .inl ⟨.inl (opField_commandWord _ _), by rwa [argField_commandWord]⟩

theorem reservedBitSet_commandWord_code {op : BitVec 8} (hop : op = 0x02 ∨ op = 0x03) {a : Arg}
    (h : a.extractLsb' 2 30 ≠ 0) : reservedBitSet (commandWord op a) :=
  .inr (.inl ⟨by rwa [opField_commandWord], by rwa [argField_commandWord]⟩)

theorem execWord_reservedBitSet {w : CmdWord} (h : reservedBitSet w) (s : State) :
    execWord w s = .next (s.raiseFault .reservedArg) :=
  execWord_refused (decode_reservedBitSet h) s

/-! ### `INIT` (R80) -/

/-- Settles O25: the default message's bytes, `INIT`'s one word, and the must-be-zero argument of its format. -/
theorem initWritesTheDefaultMessage : Obligations.InitWritesTheDefaultMessage := by
  refine fun s => ⟨⟨_, exec_init s, ?_⟩, execWord_encode (i := .init) rfl s, fun a ha => ?_⟩
  · have hagain := exec_twice_msg (exec_init s) (exec_init _)
    simpa [keepsAllButMsg] using ⟨_, exec_init _, hagain⟩
  · exact execWord_reservedBitSet (reservedBitSet_commandWord_init ha) s

/-! ### `SETMODE` (R82 to R84) -/

/-- Charge and Speed write byte 4 only (R84). -/
theorem exec_setmode_notBlank {mode : BitVec 2} (h : mode = 1 ∨ mode = 2) (s : State) :
    exec (.setmode mode) s = .next ((s.setByte 4 (mode.setWidth 8)).respond .nothing) := by
  rcases h with rfl | rfl <;> rfl

/-- Settles O26: Blank writes bytes 4 and 10, the other two modes byte 4. -/
theorem setmodeWritesTheModeAndStampsBlank : Obligations.SetmodeWritesTheModeAndStampsBlank := by
  refine fun s => ⟨fun mode hmode => ?_, execWord_encode (i := .setmode 0) rfl s,
    execWord_encode (i := .setmode 1) rfl s, execWord_encode (i := .setmode 2) rfl s, exec_setmode_bad s,
    execWord_refused rfl s, fun a ha => execWord_reservedBitSet (reservedBitSet_commandWord_code (.inl rfl) ha) s⟩
  by_cases hblank : mode = 0
  · subst hblank
    refine ⟨_, exec_setmode_blank s, by simp, by simp, fun k h4 h10 => ?_, rfl, by simp [keepsAllButMsg]⟩
    simp [h4.symm, h10.symm]
  · have hcode : mode = 1 ∨ mode = 2 := by
      rcases code_cases mode with h | h | h | h
      exacts [absurd h hblank, .inl h, .inr h, absurd h hmode]
    refine ⟨_, exec_setmode_notBlank hcode s, by simp, ?_, fun k h4 _ => ?_, rfl,
      by simp [keepsAllButMsg]⟩
    · rw [if_neg hblank]
      simp
    · simp [h4.symm]

/-- Settles O27: Blank writes bytes 4 and 10 whatever they held. -/
theorem blankStampIsUnconditional : Obligations.BlankStampIsUnconditional := fun s =>
  ⟨⟨_, exec_setmode_blank s, by simp, by simp, by simp⟩,
    _, _, exec_setled_on s, exec_setmode_blank _, by simp, by simp, by simp, by simp⟩

/-- Settles O28: byte 10 is written by `INIT`, `SETLED` Off and On, and `SETMODE` Blank, which writes the stamp. -/
theorem leavingBlankKeepsTheStamp : Obligations.LeavingBlankKeepsTheStamp := by
  refine ⟨fun mode s hmode => ⟨_, exec_setmode_notBlank hmode s, by simp, fun k h4 => ?_⟩,
    fun s => ⟨_, _, exec_setmode_blank s, exec_setmode_charge _, by simp, by simp⟩, fun i s t h hs ht => ?_⟩
  · simp [h4.symm]
  · have hwrites : Writes i 10 := writes_of_byte_ne h (hs ▸ ht)
    rcases hwrites with rfl | rfl | rfl | rfl
    · exact .inl rfl
    · cases h
      simp at ht
    · exact .inr ⟨0, rfl⟩
    · exact .inr ⟨1, rfl⟩

/-! ### `SETLED` (R86 to R89) -/

/-- Settles O29: Off and On set the whole field, Blink one bit of it. -/
theorem setledWritesTheLedField : Obligations.SetledWritesTheLedField := by
  refine fun s => ⟨
    ⟨_, exec_setled_off s, by simp, by simp, by simp, fun k h10 h11 h12 => ?_, rfl, by simp [keepsAllButMsg]⟩,
    ⟨_, exec_setled_on s, by simp, by simp, by simp, fun k h10 h11 h12 => ?_, rfl, by simp [keepsAllButMsg]⟩,
    ⟨_, exec_setled_blink s, by simp, fun k h12 => ?_, rfl, by simp [keepsAllButMsg]⟩,
    execWord_encode (i := .setled 0) rfl s, execWord_encode (i := .setled 1) rfl s,
    execWord_encode (i := .setled 2) rfl s, exec_setled_bad s, execWord_refused rfl s,
    fun a ha => execWord_reservedBitSet (reservedBitSet_commandWord_code (.inr rfl) ha) s⟩
  · simp [h10.symm, h11.symm, h12.symm]
  · simp [h10.symm, h11.symm, h12.symm]
  · simp [h12.symm]

/-- Settles O30: byte 12 is written by `INIT` and `SETLED`, of which Blink sets bit 7. -/
theorem blinkIsAnOverlayEndedByOffOrOn : Obligations.BlinkIsAnOverlayEndedByOffOrOn := by
  refine ⟨fun s => ⟨_, _, exec_setled_blink s, exec_setled_on _, by simp, by simp, by simp⟩,
    fun s => ⟨_, _, _, exec_setled_on s, exec_setled_blink _, exec_setled_blink _, by simp, by simp, by simp,
      exec_twice_msg (exec_setled_blink _) (exec_setled_blink _)⟩,
    fun s => ⟨_, _, exec_setled_blink s, exec_setled_blink _,
      exec_twice_msg (exec_setled_blink _) (exec_setled_blink _)⟩,
    fun s => ⟨_, exec_setled_off s, by simp⟩, fun i s t h hs ht => ?_⟩
  have hwrites : Writes i 12 := by
    refine writes_of_byte_ne h fun heq => ?_
    rw [heq, hs] at ht
    cases ht
  rcases hwrites with rfl | rfl | rfl | rfl
  · exact .inl rfl
  · exact .inr (.inl rfl)
  · exact .inr (.inr rfl)
  · cases h
    simp at ht

/-! ### The LED fields the block takes (R90) -/

/-- A host's script that presents the words of the given commands. -/
def commandScript (is : List Instr) : List HostEvent := is.map fun i => .command (encode i)

/-- Each row of R90's table, with commands that lead to it from reset. -/
theorem exists_script_of_mem_ledValues : ∀ x ∈ ledValues, ∃ (is : List Instr) (s : State),
    Host.Core.run Sys2Proof.core is.length (State.reset.withInputs (commandScript is)) = .next s ∧
      ledField s.msg = x := by
  simp only [ledValues, List.forall_mem_cons, List.not_mem_nil, false_implies, implies_true, and_true]
  exact ⟨⟨[], _, rfl, rfl⟩, ⟨[.setled 2], _, rfl, rfl⟩, ⟨[.setled 1], _, rfl, rfl⟩,
    ⟨[.setled 1, .setled 2], _, rfl, rfl⟩, ⟨[.setmode 0], _, rfl, rfl⟩, ⟨[.setled 2, .setmode 0], _, rfl, rfl⟩,
    ⟨[.setled 1, .setmode 0], _, rfl, rfl⟩, ⟨[.setled 1, .setled 2, .setmode 0], _, rfl, rfl⟩⟩

/-- Settles O23: the invariant admits no field outside the table, and a script leads to each of its rows. -/
theorem ledFieldTakesExactlyTheEightValues : Obligations.LedFieldTakesExactlyTheEightValues := by
  refine fun x => ⟨?_, fun hx => ?_⟩
  · rintro ⟨s, hs, rfl⟩
    exact hs.inv.led
  · obtain ⟨is, s, hrun, hfield⟩ := exists_script_of_mem_ledValues x hx
    exact ⟨s, ⟨_, _, hrun⟩, hfield⟩

/-! ### `SETBAT` (R91, R93) -/

/-- `SETBAT` writes the operand's low half (R91). -/
theorem exec_setbat_low (bat : Arg) (s : State) :
    exec (.setbat bat) s = .next ((s.setHalf 6 (bat.extractLsb' 0 16)).respond .nothing) := by
  rw [exec_setbat, trunc16_toInt, BitVec.setWidth_eq_extractLsb' (by decide)]

/-- Settles O31: the low half of the operand, by its bytes. -/
theorem setbatWritesTheLowHalf : Obligations.SetbatWritesTheLowHalf := by
  refine fun bat s => ⟨⟨_, exec_setbat_low bat s, by simp, ?_, ?_, fun k h6 h7 => ?_, rfl, by simp [keepsAllButMsg]⟩,
    execWord_encode (i := .setbat bat) rfl s⟩
  · simp [BitVec.extractLsb'_extractLsb'_of_le]
  · simp [BitVec.extractLsb'_extractLsb'_of_le]
  · simp [h6.symm, h7.symm]

theorem exec_setbat_bytes (bat : Arg) (s : State) : ∃ t, exec (.setbat bat) s = .next t ∧
    t.half 6 = bat.extractLsb' 0 16 ∧ t.byte 6 = bat.extractLsb' 8 8 ∧ t.byte 7 = bat.extractLsb' 0 8 := by
  obtain ⟨⟨t, ht, hhalf, hhigh, hlow, -⟩, -⟩ := setbatWritesTheLowHalf bat s
  exact ⟨t, ht, hhalf, hhigh, hlow⟩

/-- The low half of an integer's 32-bit pattern is the integer modulo 2^16 (R93). -/
theorem toNat_extractLsb'_ofInt (n : Int) : (((BitVec.ofInt 32 n).extractLsb' 0 16).toNat : Int) = n % 65536 := by
  simp only [BitVec.extractLsb'_toNat, BitVec.toNat_ofInt, Nat.shiftRight_zero]
  omega

/-- Settles O32: the operand of `SETBAT` is the integer modulo 2^32, and its low half the integer modulo 2^16. -/
theorem batteryWrapsModuloTwoToSixteen : Obligations.BatteryWrapsModuloTwoToSixteen := by
  refine ⟨fun n s => ?_, fun s => ⟨?_, ?_, ?_, ?_⟩⟩
  · obtain ⟨t, ht, hhalf, -⟩ := exec_setbat_bytes (BitVec.ofInt 32 n) s
    exact ⟨t, ht, hhalf ▸ toNat_extractLsb'_ofInt n⟩
  all_goals
    obtain ⟨t, ht, -, hhigh, hlow⟩ := exec_setbat_bytes _ s
    exact ⟨t, ht, hhigh, hlow⟩

/-! ### The speed sentinel (R81) -/

/-- The divisor's sign is the sequence value's (R111). -/
theorem sequenceOf_reflect {k : Int} (h : k < 0) : sequenceOf k = -sequenceOf (-k - 1) := by
  rw [sequenceOf_of_neg h, sequenceOf_of_nonneg (by omega)]
  congr 2 <;> ring

theorem le_sequenceOf_iff {k : Int} (h : 0 ≤ k) (q : Int) :
    q ≤ sequenceOf k ↔ q * (2 * (2 * k + 1)) ≤ 89440 + (2 * k + 1) := by
  rw [sequenceOf_of_nonneg h, Int.le_ediv_iff_mul_le (by omega)]

theorem sequenceOf_range_of_nonneg {k : Int} (h : 0 ≤ k) : 0 ≤ sequenceOf k ∧ sequenceOf k < 44721 := by
  rw [← not_le (a := 44721), le_sequenceOf_iff h, le_sequenceOf_iff h]
  omega

/-- No odd divisor gives 2288: 19 gives more and 21 less (R81). -/
theorem sequenceOf_ne_sentinel_of_nonneg {k : Int} (h : 0 ≤ k) : sequenceOf k ≠ 2288 := by
  have hle := le_sequenceOf_iff h 2288
  have hlt := le_sequenceOf_iff h 2289
  omega

/-- A sequence value is within 44720 of zero and is not the sentinel, so modulo 2^16 it is not the sentinel either. -/
theorem sequenceOf_emod_ne_sentinel (k : Int) : sequenceOf k % 65536 ≠ 2288 := by
  rcases lt_or_ge k 0 with hk | hk
  · have hrange := sequenceOf_range_of_nonneg (k := -k - 1) (by omega)
    rw [sequenceOf_reflect hk]
    omega
  · have hrange := sequenceOf_range_of_nonneg hk
    have hne := sequenceOf_ne_sentinel_of_nonneg hk
    omega

theorem trunc16_ne_sentinel {n : Int} (h : n % 65536 ≠ 2288) : trunc16 n ≠ 0x08F0 := by
  intro heq
  have htoNat : (trunc16 n).toNat = 2288 := congrArg BitVec.toNat heq
  rw [trunc16, BitVec.toNat_ofInt] at htoNat
  omega

/-- Bytes 8 and 9 are zero for an infinity and a sequence value modulo 2^16 for a finite operand (R110, R115). -/
theorem speedHalf_exact_wrap (draw : Half) (spd : Arg) :
    speedHalf .exactRational .wrap draw spd =
      if isInf spd then 0 else trunc16 (sequenceOf (speedIndex (f32Mant spd) (f32Pow spd))) := by
  cases h : isInf spd with
  | true => simp [speedHalf, speedSteps_of_isInf h]
  | false => simp [speedHalf, speedSteps_exact h, exactSteps]

/-- Settles O44: a sequence value is not 2288 modulo 2^16, and zero is not. -/
theorem setspdNeverWritesTheSentinel : Obligations.SetspdNeverWritesTheSentinel := by
  refine ⟨fun k hk => sequenceOf_emod_ne_sentinel k (by rw [hk]; rfl), rfl, rfl, fun spd s t hnan h => ?_⟩
  rw [exec_setspd hnan] at h
  cases h
  simp only [State.half_eq, State.respond_msg, State.setHalf_msg, msgHalf_msgSetHalf_same, speedHalf_exact_wrap]
  split
  · decide
  · exact trunc16_ne_sentinel (sequenceOf_emod_ne_sentinel _)

end Sys2Proof.Machine
end

section
/-! The speed encoder (41_speed_encoder.md): `SETSPD`'s write and frame under every value of its parameters (R117,
R118), the quantized speed as a floor (R110, R111), the sequence value as the integer nearest a quotient with an odd
divisor (R111), and its shape (R112, R113, R116). -/

namespace Sys2Proof.Machine

/-! ### What `SETSPD` writes and leaves -/

/-- `t` is `s` after a `SETSPD` that wrote `v` and took `n` free values (R117). -/
structure SpeedWritten (v : Half) (n : Nat) (s t : State) : Prop where
  half : t.half 8 = v
  high : t.byte 8 = v.extractLsb' 8 8
  low : t.byte 9 = v.extractLsb' 0 8
  frame : ∀ k, k ≠ 8 → k ≠ 9 → t.byte k = s.byte k
  response : t.response = some .nothing
  status : t.status = s.status
  tx : t.tx = s.tx
  inputs : t.inputs = s.inputs
  draws : t.draws = s.draws + n

theorem SpeedWritten.keepsAllButMsg {v : Half} {s t : State} (h : SpeedWritten v 0 s t) : keepsAllButMsg s t :=
  ⟨h.status, h.tx, h.inputs, h.draws⟩

theorem speedWritten_setHalf (s : State) (v : Half) (n : Nat) :
    SpeedWritten v n s (((s.setHalf 8 v).countDraws n).respond .nothing) where
  half := msgHalf_msgSetHalf_same s.msg 8 v
  high := by simp
  low := by simp
  frame k h8 h9 := by simp [h8.symm, h9.symm]
  response := rfl
  status := rfl
  tx := rfl
  inputs := rfl
  draws := rfl

/-- `SETSPD` of an operand that is no NaN completes, under every parameter (R110, R118). -/
theorem setspdWith_writes (arith : SpeedArith) (policy : SpeedNegPolicy) {spd : Arg} (h : isNan spd = false)
    (s : State) : ∃ t, setspdWith arith policy spd s = .next t ∧
      SpeedWritten (speedHalf arith policy (Config.speedDraw s.draws) spd) (speedDraws arith policy spd) s t :=
  ⟨_, if_neg (by simp [h]), speedWritten_setHalf ..⟩

/-- This hardware's arithmetic and policy (R4). -/
theorem exec_setspd_eq_setspdWith (spd : Arg) (s : State) :
    exec (.setspd spd) s = setspdWith .exactRational .wrap spd s := rfl

theorem exec_setspd_writes {spd : Arg} (h : isNan spd = false) (s : State) :
    ∃ t, exec (.setspd spd) s = .next t ∧ SpeedWritten (speedHalf .exactRational .wrap 0 spd) 0 s t :=
  ⟨_, exec_setspd h s, speedWritten_setHalf s _ 0⟩

theorem speedDraws_le_one (arith : SpeedArith) (policy : SpeedNegPolicy) (spd : Arg) :
    speedDraws arith policy spd ≤ 1 := by
  unfold speedDraws
  split
  · exact Nat.zero_le 1
  · split <;> decide

/-- Settles O34: the encoder's value is all `SETSPD` writes. -/
theorem setspdWritesTheSpeedFieldOnly : Obligations.SetspdWritesTheSpeedFieldOnly := by
  intro spd s hnan
  obtain ⟨t, ht, hw⟩ := exec_setspd_writes hnan s
  exact ⟨t, ht, hw.half, hw.frame, hw.response, hw.keepsAllButMsg⟩

/-- Settles O45: the value written and the number of draws are the only things the parameters decide. -/
theorem setspdCompletesUnderEveryParameter : Obligations.SetspdCompletesUnderEveryParameter := by
  intro arith policy spd s hnan
  obtain ⟨t, ht, hw⟩ := setspdWith_writes arith policy hnan s
  have hdraws := hw.draws
  have hle := speedDraws_le_one arith policy spd
  refine ⟨t, ht, hw.frame, hw.status, hw.tx, hw.inputs, hw.response, ?_, by omega, by omega⟩
  rintro rfl
  rwa [speedDraws_wrap] at hdraws

/-! ### NaNs and infinities -/

theorem isNan_of_fields {spd : Arg} (hexp : f32Exp spd = 0xFF) (hfrac : f32Frac spd ≠ 0) : isNan spd = true := by
  simpa [isNan, hexp] using hfrac

theorem isInf_of_fields {spd : Arg} (hexp : f32Exp spd = 0xFF) (hfrac : f32Frac spd = 0) : isInf spd = true := by
  simp [isInf, hexp, hfrac]

theorem not_isNan_of_isInf {spd : Arg} (h : isInf spd = true) : isNan spd = false := by
  simp only [isInf, Bool.and_eq_true, beq_iff_eq] at h
  simp [isNan, h.2]

/-- An infinity writes zero under every parameter (R115). -/
theorem speedHalf_of_isInf {spd : Arg} (h : isInf spd = true) (arith : SpeedArith) (policy : SpeedNegPolicy)
    (draw : Half) : speedHalf arith policy draw spd = 0 := by
  simp [speedHalf, speedSteps_of_isInf h]

/-- Settles O41: a NaN's fault leaves `MSG` and `TX`. -/
theorem nanSpeedFaults : Obligations.NanSpeedFaults := fun _ s hexp hfrac =>
  ⟨_, exec_setspd_nan (isNan_of_fields hexp hfrac) s, rfl, rfl, rfl⟩

/-- Settles O42: both patterns are infinities, and this hardware's case is one of the parameters'. -/
theorem infiniteSpeedWritesZero : Obligations.InfiniteSpeedWritesZero := by
  intro arith policy spd s hspd
  have hinf : isInf spd = true := by rcases hspd with rfl | rfl <;> rfl
  have hzero (arith : SpeedArith) (policy : SpeedNegPolicy) :
      ∃ t, setspdWith arith policy spd s = .next t ∧ t.byte 8 = 0x00 ∧ t.byte 9 = 0x00 := by
    obtain ⟨t, ht, hw⟩ := setspdWith_writes arith policy (not_isNan_of_isInf hinf) s
    rw [speedHalf_of_isInf hinf] at hw
    exact ⟨t, ht, hw.high, hw.low⟩
  rw [exec_setspd_eq_setspdWith]
  exact ⟨hzero .exactRational .wrap, hzero arith policy⟩

/-! ### The quantized speed (R110 step 1, R111) -/

theorem speedIndex_of_nonneg {mant pow : Int} (h : 0 ≤ pow) :
    speedIndex mant pow = (20 * mant * 2 ^ pow.toNat + 1) / 2 := by
  cases pow with
  | ofNat n => rfl
  | negSucc n => exact absurd h (by omega)

theorem speedIndex_of_neg {mant pow : Int} (h : pow < 0) :
    speedIndex mant pow = (20 * mant + 2 ^ (-pow).toNat) / 2 ^ (1 - pow).toNat := by
  cases pow with
  | ofNat n => exact absurd h (by simp)
  | negSucc n =>
    have hhalf : (-Int.negSucc n).toNat = n + 1 := by omega
    have hden : (1 - Int.negSucc n).toNat = n + 2 := by omega
    rw [hhalf, hden]
    rfl

/-- The integer quotient is the rational floor. -/
theorem speedIndex_eq_floor (mant pow : Int) :
    speedIndex mant pow = ⌊10 * ((mant : Rat) * 2 ^ pow) + 1 / 2⌋ := by
  cases pow with
  | ofNat n =>
    have hquot : 10 * ((mant : Rat) * 2 ^ n) + 1 / 2 = ((20 * mant * 2 ^ n + 1 : Int) : Rat) / (2 : Nat) := by
      push_cast; ring
    rw [Int.ofNat_eq_natCast, zpow_natCast, hquot, Rat.floor_intCast_div_natCast]
    rfl
  | negSucc n =>
    have hquot : 10 * ((mant : Rat) * (2 ^ (n + 1))⁻¹) + 1 / 2 =
        ((20 * mant + 2 ^ (n + 1) : Int) : Rat) / (2 ^ (n + 2) : Nat) := by
      push_cast; field_simp; ring
    rw [zpow_negSucc, hquot, Rat.floor_intCast_div_natCast]
    rfl

/-- The exact value, written out by the fields of the pattern (R110). -/
theorem f32Value_eq_fields (spd : Arg) :
    f32Value spd = (if f32Sign spd then -1 else 1) *
      (if f32Exp spd = 0 then ((f32Frac spd).toNat : Rat) * 2 ^ (-149 : Int)
       else ((2 ^ 23 + (f32Frac spd).toNat : Nat) : Rat) * 2 ^ (((f32Exp spd).toNat : Int) - 150)) := by
  rw [f32Value_eq, f32Significand_eq, f32Pow]
  split_ifs <;> rfl

/-- Step 1 on the operand's exact value (R110, R111). -/
theorem exactSteps_fst_eq_floor (spd : Arg) : (exactSteps spd).1 = (10 * f32Value spd + 1 / 2).floor := by
  rw [f32Value_eq_mant]
  exact speedIndex_eq_floor ..

theorem exactSteps_snd (spd : Arg) : (exactSteps spd).2 = sequenceOf (exactSteps spd).1 := rfl

/-- A speed is quantized to `j` steps or more from `j - 1/2` steps up. -/
theorem le_exactSteps_fst_iff (j : Int) (spd : Arg) :
    j ≤ (exactSteps spd).1 ↔ (2 * (j : Rat) - 1) / 20 ≤ f32Value spd := by
  rw [exactSteps_fst_eq_floor]
  refine (Int.le_floor (a := 10 * f32Value spd + 1 / 2)).trans ?_
  constructor <;> intro h <;> linarith

theorem exactSteps_fst_lt_iff (j : Int) (spd : Arg) :
    (exactSteps spd).1 < j ↔ f32Value spd < (2 * (j : Rat) - 1) / 20 := by
  rw [← not_le, le_exactSteps_fst_iff, not_le]

theorem exactSteps_fst_nonneg_iff (spd : Arg) : 0 ≤ (exactSteps spd).1 ↔ -1 / 20 ≤ f32Value spd := by
  rw [le_exactSteps_fst_iff]
  norm_num

theorem exactSteps_fst_mono {spd spd' : Arg} (h : f32Value spd ≤ f32Value spd') :
    (exactSteps spd).1 ≤ (exactSteps spd').1 :=
  (le_exactSteps_fst_iff _ _).mpr (((le_exactSteps_fst_iff _ _).mp le_rfl).trans h)

theorem exactSteps_fst_neg_iff (spd : Arg) : (exactSteps spd).1 < 0 ↔ f32Value spd < -1 / 20 := by
  rw [← not_le, exactSteps_fst_nonneg_iff, not_le]

/-- Under this hardware's parameters a finite operand writes its sequence value. -/
theorem speedHalf_of_finite {spd : Arg} (h : f32Exp spd ≠ 0xFF) :
    speedHalf .exactRational .wrap 0 spd = trunc16 (exactSteps spd).2 := by
  rw [speedHalf_exact_wrap, not_isInf_of_finite h]
  rfl

theorem exec_setspd_finite {spd : Arg} (h : f32Exp spd ≠ 0xFF) (s : State) :
    ∃ t, exec (.setspd spd) s = .next t ∧ SpeedWritten (trunc16 (exactSteps spd).2) 0 s t :=
  speedHalf_of_finite h ▸ exec_setspd_writes (not_isNan_of_finite h) s

theorem exec_setspd_half {spd : Arg} (h : f32Exp spd ≠ 0xFF) (s : State) :
    ∃ t, exec (.setspd spd) s = .next t ∧ t.half 8 = trunc16 (exactSteps spd).2 := by
  obtain ⟨t, ht, hw⟩ := exec_setspd_finite h s
  exact ⟨t, ht, hw.half⟩

theorem exec_setspd_bytes {spd : Arg} (h : f32Exp spd ≠ 0xFF) (s : State) :
    ∃ t, exec (.setspd spd) s = .next t ∧ t.byte 8 = (trunc16 (exactSteps spd).2).extractLsb' 8 8 ∧
      t.byte 9 = (trunc16 (exactSteps spd).2).extractLsb' 0 8 := by
  obtain ⟨t, ht, hw⟩ := exec_setspd_finite h s
  exact ⟨t, ht, hw.high, hw.low⟩

/-- From zero up the policy makes no difference to what a quantized speed writes (R116). -/
theorem setspdWith_exact_nonneg (policy : SpeedNegPolicy) {spd : Arg} (h : f32Exp spd ≠ 0xFF)
    (hk : 0 ≤ (exactSteps spd).1) (s : State) :
    ∃ t, setspdWith .exactRational policy spd s = .next t ∧ SpeedWritten (trunc16 (exactSteps spd).2) 0 s t := by
  simpa [speedHalf, speedDraws, speedSteps_exact (not_isInf_of_finite h), hk.not_gt] using
    setspdWith_writes .exactRational policy (not_isNan_of_finite h) s

/-- Under `DRAW` a negative quantized speed takes the free value at the counter (R116; log entry 3). -/
theorem setspdWith_draw_neg {spd : Arg} (h : f32Exp spd ≠ 0xFF) (hk : (exactSteps spd).1 < 0) (s : State) :
    ∃ t, setspdWith .exactRational .draw spd s = .next t ∧ SpeedWritten (Config.speedDraw s.draws) 1 s t := by
  simpa [speedHalf, speedDraws, speedSteps_exact (not_isInf_of_finite h), hk] using
    setspdWith_writes .exactRational .draw (not_isNan_of_finite h) s

/-! ### The sequence value (R110 steps 2 and 3, R111) -/

/-- `q` is at most the quotient rounded, where `q - 1/2` is at most the quotient. -/
theorem le_sequenceOf_iff_mul_le {k : Int} (h : 0 ≤ k) (q : Int) :
    q ≤ sequenceOf k ↔ (2 * q - 1) * (2 * k + 1) ≤ 89440 := by
  have hmul : (2 * q - 1) * (2 * k + 1) = q * (2 * (2 * k + 1)) - (2 * k + 1) := by ring
  rw [le_sequenceOf_iff h, hmul]
  omega

theorem eq_sequenceOf_iff {k : Int} (h : 0 ≤ k) (j : Int) :
    j = sequenceOf k ↔ (2 * j - 1) * (2 * k + 1) ≤ 89440 ∧ 89440 < (2 * j + 1) * (2 * k + 1) := by
  have hsucc := le_sequenceOf_iff_mul_le h (j + 1)
  rw [show 2 * (j + 1) - 1 = 2 * j + 1 by ring] at hsucc
  rw [← le_sequenceOf_iff_mul_le h, ← not_le, ← hsucc]
  omega

/-- An odd divisor gives no quotient that is a half-integer: 89440 is even (R111). -/
theorem odd_mul_divisor_ne (j k : Int) : (2 * j + 1) * (2 * k + 1) ≠ 89440 := by
  have hodd : (2 * j + 1) * (2 * k + 1) = 2 * (2 * (j * k) + j + k) + 1 := by ring
  omega

theorem nearest_iff_eq_sequenceOf_of_nonneg {k : Int} (h : 0 ≤ k) (j : Int) :
    2 * |44720 - j * (2 * k + 1)| ≤ |2 * k + 1| ↔ j = sequenceOf k := by
  have htie := odd_mul_divisor_ne j k
  have hlow : (2 * j - 1) * (2 * k + 1) = 2 * (j * (2 * k + 1)) - (2 * k + 1) := by ring
  have hhigh : (2 * j + 1) * (2 * k + 1) = 2 * (j * (2 * k + 1)) + (2 * k + 1) := by ring
  rw [eq_sequenceOf_iff h, hlow, hhigh, abs_of_nonneg (by omega : 0 ≤ 2 * k + 1)]
  rw [hhigh] at htie
  rcases abs_cases (44720 - j * (2 * k + 1)) <;> omega

/-- Settles O37: a negative divisor reflects to a positive one, and there the nearest integer is the rounded quotient,
no tie being possible. -/
theorem sequenceValueIsTheNearestInteger : Obligations.SequenceValueIsTheNearestInteger := by
  intro k j
  rcases lt_or_ge k 0 with hk | hk
  · have hpos := nearest_iff_eq_sequenceOf_of_nonneg (k := -k - 1) (by omega) (-j)
    rw [show 2 * (-k - 1) + 1 = -(2 * k + 1) by ring, neg_mul_neg, abs_neg, neg_eq_iff_eq_neg] at hpos
    rwa [sequenceOf_reflect hk]
  · exact nearest_iff_eq_sequenceOf_of_nonneg hk j

theorem roundAway_neg {x : Rat} (h : 0 < x) : roundAway (-x) = -roundAway x := by
  simp [roundAway, h, h.le]

theorem roundAway_div_divisor_of_nonneg {k : Int} (h : 0 ≤ k) : roundAway (44720 / (2 * k + 1)) = sequenceOf k := by
  rw [sequenceOf_of_nonneg h]
  lift k to Nat using h
  have hquot : (44720 : Rat) / (2 * k + 1) + 1 / 2 = ((89440 + (2 * k + 1) : Int) : Rat) / (2 * (2 * k + 1) : Nat) := by
    push_cast
    field_simp
    ring
  rw [roundAway, if_pos (by positivity), Int.cast_natCast, hquot]
  exact Rat.floor_intCast_div_natCast ..

/-- Step 3 of R110 in the integers of R111. -/
theorem roundAway_div_divisor (k : Int) : roundAway (44720 / (2 * k + 1)) = sequenceOf k := by
  rcases lt_or_ge k 0 with hk | hk
  · have hreflect : 0 ≤ -k - 1 := by omega
    have hdiv : (0 : Rat) < 2 * (-k - 1 : Int) + 1 := by exact_mod_cast (by omega : 0 < 2 * (-k - 1) + 1)
    have hneg : (44720 : Rat) / (2 * k + 1) = -(44720 / (2 * (-k - 1 : Int) + 1)) := by
      rw [← div_neg]
      push_cast
      congr 1
      ring
    rw [hneg, roundAway_neg (by positivity), roundAway_div_divisor_of_nonneg hreflect, sequenceOf_reflect hk]
  · exact roundAway_div_divisor_of_nonneg hk

/-- Settles O35: the quantized speed is the floor of step 1 and its sequence value the rounded quotient of step 3. -/
theorem speedEncoderIsTheRationalFormula : Obligations.SpeedEncoderIsTheRationalFormula := by
  intro spd s e f v k d seq
  have hk : (exactSteps spd).1 = k := by
    have hv : f32Value spd = v := f32Value_eq_fields spd
    rw [exactSteps_fst_eq_floor, hv]
    simp only [k, div_div_eq_mul_div, div_one, mul_comm]
  have hseq : (exactSteps spd).2 = seq := by
    have hquot : (2236 : Rat) / d = 44720 / (2 * k + 1) := by
      rw [show d = (2 * k + 1) / 20 by ring, div_div_eq_mul_div]
      norm_num
    rw [exactSteps_snd, hk, ← roundAway_div_divisor, ← hquot]
  refine ⟨fun hfin => ?_, fun hfin => ?_, fun hexp hfrac => exec_setspd_nan (isNan_of_fields hexp hfrac) s,
    fun hexp hfrac => ?_, execWord_encode (i := .setspd spd) rfl s, exec_setspd_bytes (by decide) s⟩
  · obtain ⟨t, ht, hw⟩ := exec_setspd_finite hfin s
    rw [hseq] at hw
    exact ⟨t, ht, hw.half, hw.high, hw.low, hw.frame, hw.response, hw.keepsAllButMsg⟩
  · rcases lt_or_ge k 0 with hneg | hnonneg
    · obtain ⟨t, ht, hw⟩ := setspdWith_draw_neg hfin (hk ▸ hneg) s
      exact ⟨t, ht, by rw [hw.half, if_pos hneg], hw.frame⟩
    · obtain ⟨t, ht, hw⟩ := setspdWith_exact_nonneg .draw hfin (hk ▸ hnonneg) s
      exact ⟨t, ht, by rw [hw.half, hseq, if_neg hnonneg.not_gt, trunc16], hw.frame⟩
  · have hinf := isInf_of_fields hexp hfrac
    obtain ⟨t, ht, hw⟩ := exec_setspd_writes (not_isNan_of_isInf hinf) s
    rw [speedHalf_of_isInf hinf] at hw
    exact ⟨t, ht, hw.half, hw.frame, hw.response, hw.keepsAllButMsg⟩

theorem div_divisor_ne_half_integer (k j : Int) : (44720 : Rat) / (2 * k + 1 : Int) ≠ j + 1 / 2 := by
  have hdiv : ((2 * k + 1 : Int) : Rat) ≠ 0 := by exact_mod_cast divisor_ne_zero k
  intro hhalf
  rw [div_eq_iff hdiv] at hhalf
  refine odd_mul_divisor_ne j k (Int.cast_injective (α := Rat) ?_)
  push_cast at hhalf ⊢
  linarith

/-- Settles O36: the quantized speed is the floor, in both forms of its integer quotient. -/
theorem speedEncoderIntegerForm : Obligations.SpeedEncoderIntegerForm := by
  intro spd hfin k n
  have hk : (exactSteps spd).1 = k := exactSteps_fst_eq_floor spd
  refine ⟨divisor_ne_zero k, div_divisor_ne_half_integer k, fun hpow => ?_, fun hpow => ?_, ?_⟩
  · exact hk.symm.trans (speedIndex_of_nonneg hpow)
  · exact hk.symm.trans (speedIndex_of_neg hpow)
  · rw [speedHalf_of_finite hfin, exactSteps_snd, hk]
    rfl

/-! ### Range and shape from -1/20 up (R112, R113) -/

theorem sequenceOf_antitone {k k' : Int} (hk : 0 ≤ k) (hle : k ≤ k') : sequenceOf k' ≤ sequenceOf k := by
  have hk' := hk.trans hle
  rcases (sequenceOf_range_of_nonneg hk').1.eq_or_lt with hzero | hpos
  · rw [← hzero]
    exact (sequenceOf_range_of_nonneg hk).1
  · rw [le_sequenceOf_iff_mul_le hk]
    calc (2 * sequenceOf k' - 1) * (2 * k + 1) ≤ (2 * sequenceOf k' - 1) * (2 * k' + 1) := by gcongr; omega
      _ ≤ 89440 := (le_sequenceOf_iff_mul_le hk' _).mp le_rfl

theorem sequenceOf_eq_max_iff {k : Int} (h : 0 ≤ k) : sequenceOf k = 44720 ↔ k < 1 := by
  rw [eq_comm, eq_sequenceOf_iff h]
  omega

theorem sequenceOf_eq_zero_iff {k : Int} (h : 0 ≤ k) : sequenceOf k = 0 ↔ 44720 ≤ k := by
  rw [eq_comm, eq_sequenceOf_iff h]
  omega

/-- While the value is not below the index, quotients of neighbours are more than 1 apart. -/
theorem sequenceOf_succ_lt_of_le {k : Int} (hk : 0 ≤ k) (hle : k + 1 ≤ sequenceOf (k + 1)) :
    sequenceOf (k + 1) < sequenceOf k := by
  have hsucc := (le_sequenceOf_iff_mul_le (by omega : 0 ≤ k + 1) _).mp le_rfl
  rw [Int.lt_iff_add_one_le, le_sequenceOf_iff_mul_le hk]
  linarith

/-- Up to the first collision the sequence value falls with every step (R112). -/
theorem sequenceOf_succ_lt {k : Int} (hk : 0 ≤ k) (hlt : k < 161) : sequenceOf (k + 1) < sequenceOf k := by
  rcases lt_or_ge k 149 with hlow | hhigh
  · refine sequenceOf_succ_lt_of_le hk ((le_sequenceOf_iff_mul_le (by omega) _).mpr ?_)
    nlinarith
  · interval_cases k <;> decide

theorem sequenceOf_strictAnti_to_161 {k k' : Int} (hk : 0 ≤ k) (hlt : k < k') (hk' : k' < 162) :
    sequenceOf k' < sequenceOf k :=
  (sequenceOf_antitone (by omega) hlt).trans_lt (sequenceOf_succ_lt hk (by omega))

theorem toNat_trunc16 {n : Int} (hlow : 0 ≤ n) (hhigh : n < 2 ^ 16) : ((trunc16 n).toNat : Int) = n := by
  rw [trunc16, BitVec.toNat_ofInt]
  omega

/-- From -1/20 up the 16 bits written are the sequence value itself (R112). -/
theorem toNat_speedHalf {spd : Arg} (hfin : f32Exp spd ≠ 0xFF) (hv : -1 / 20 ≤ f32Value spd) :
    ((speedHalf .exactRational .wrap 0 spd).toNat : Int) = sequenceOf (exactSteps spd).1 := by
  have hrange := sequenceOf_range_of_nonneg ((exactSteps_fst_nonneg_iff spd).mpr hv)
  rw [speedHalf_of_finite hfin, exactSteps_snd]
  exact toNat_trunc16 hrange.1 (by omega)

theorem speedHalf_eq_iff {spd : Arg} (hfin : f32Exp spd ≠ 0xFF) (hv : -1 / 20 ≤ f32Value spd) (n : Half) :
    speedHalf .exactRational .wrap 0 spd = n ↔ sequenceOf (exactSteps spd).1 = n.toNat := by
  rw [← toNat_speedHalf hfin hv, Nat.cast_inj, BitVec.toNat_inj]

/-- Settles O38: each claim on the speed is one on the quantized speed, which is monotone in it. -/
theorem sequenceValueRangeAndMonotonicity : Obligations.SequenceValueRangeAndMonotonicity := by
  refine ⟨fun spd hfin hv => ?_, fun spd spd' hfin hfin' hv hle => ?_, rfl, rfl, fun k k' hk hlt hk' => ?_⟩
  · have hk := (exactSteps_fst_nonneg_iff spd).mpr hv
    have hval := toNat_speedHalf hfin hv
    have hrange := sequenceOf_range_of_nonneg hk
    refine ⟨by omega, ?_, ?_⟩
    · refine (speedHalf_eq_iff hfin hv 44720).trans ((sequenceOf_eq_max_iff hk).trans ?_)
      rw [exactSteps_fst_lt_iff]
      norm_num
    · refine (speedHalf_eq_iff hfin hv 0).trans ((sequenceOf_eq_zero_iff hk).trans ?_)
      rw [le_exactSteps_fst_iff]
      norm_num
  · have hval := toNat_speedHalf hfin hv
    have hval' := toNat_speedHalf hfin' (hv.trans hle)
    have hanti := sequenceOf_antitone ((exactSteps_fst_nonneg_iff spd).mpr hv) (exactSteps_fst_mono hle)
    omega
  · exact (sequenceOf_strictAnti_to_161 hk hlt hk').ne'

/-- Every integer from 0 to 138 is a sequence value: of the largest odd divisor that leaves the quotient at `j - 1/2`
or above, which is wide enough to leave it below `j + 1/2`. -/
theorem exists_sequenceOf_eq {j : Int} (hlow : 0 ≤ j) (hhigh : j ≤ 138) : ∃ k, 0 ≤ k ∧ sequenceOf k = j := by
  rcases hlow.eq_or_lt with rfl | hpos
  · exact ⟨44720, by decide, by decide⟩
  · have hwide : 325 ≤ 89440 / (2 * j - 1) := (Int.le_ediv_iff_mul_le (by omega)).mpr (by omega)
    have hle : 89440 / (2 * j - 1) * (2 * j - 1) ≤ 89440 := Int.ediv_mul_le _ (by omega)
    have hlt : 89440 < (89440 / (2 * j - 1) + 1) * (2 * j - 1) := Int.lt_ediv_add_one_mul_self _ (by omega)
    generalize 89440 / (2 * j - 1) = c at *
    obtain ⟨k, hc⟩ : ∃ k, c = 2 * k + 1 ∨ c = 2 * k + 2 := ⟨(c - 1) / 2, by omega⟩
    have hk : 0 ≤ k := by omega
    refine ⟨k, hk, ((eq_sequenceOf_iff hk j).mpr ?_).symm⟩
    rcases hc with rfl | rfl <;> constructor <;> linarith

/-- The sequence values above 138, one for each index below 161, and the integers 0 to 138 (R112). -/
def sequenceValues : List Int :=
  (List.range 161).map (fun k : Nat => sequenceOf k) ++ (List.range 139).map (fun j : Nat => (j : Int))

theorem lt_sequenceOf_of_lt {k : Int} (hk : 0 ≤ k) (hlt : k < 161) : 138 < sequenceOf k :=
  sequenceOf_strictAnti_to_161 (k' := 161) hk hlt (by decide)

theorem nodup_sequenceValues : sequenceValues.Nodup := by
  refine List.Nodup.append (List.nodup_range.map_on fun k hk k' hk' heq => ?_)
    (List.nodup_range.map Nat.cast_injective) fun j hj hj' => ?_
  · rw [List.mem_range] at hk hk'
    rcases lt_trichotomy k k' with hlt | rfl | hlt
    · exact absurd heq (sequenceOf_strictAnti_to_161 (by omega) (by omega) (by omega)).ne'
    · rfl
    · exact absurd heq (sequenceOf_strictAnti_to_161 (by omega) (by omega) (by omega)).ne
  · obtain ⟨k, hk, rfl⟩ := List.mem_map.mp hj
    obtain ⟨i, hi, heq⟩ := List.mem_map.mp hj'
    rw [List.mem_range] at hk hi
    have hlt := lt_sequenceOf_of_lt (k := k) (by omega) (by omega)
    omega

theorem mem_sequenceValues_iff (j : Int) : j ∈ sequenceValues ↔ ∃ k, 0 ≤ k ∧ sequenceOf k = j := by
  simp only [sequenceValues, List.mem_append, List.mem_map, List.mem_range]
  constructor
  · rintro (⟨k, -, rfl⟩ | ⟨i, hi, rfl⟩)
    · exact ⟨k, by omega, rfl⟩
    · exact exists_sequenceOf_eq (by omega) (by omega)
  · rintro ⟨k, hk, rfl⟩
    rcases lt_or_ge k 161 with hlt | hge
    · exact .inl ⟨k.toNat, by omega, by rw [Int.toNat_of_nonneg hk]⟩
    · have hle : sequenceOf k ≤ 138 := sequenceOf_antitone (k := 161) (by decide) hge
      have hrange := sequenceOf_range_of_nonneg hk
      exact .inr ⟨(sequenceOf k).toNat, by omega, Int.toNat_of_nonneg hrange.1⟩

/-- Settles O39: 161 values before the first collision, and from there every integer from 138 down. -/
theorem threeHundredSequenceValues : Obligations.ThreeHundredSequenceValues :=
  ⟨sequenceValues, nodup_sequenceValues, by simp [sequenceValues],
    (mem_sequenceValues_iff 0).mpr (exists_sequenceOf_eq le_rfl (by decide)), mem_sequenceValues_iff⟩

theorem sequenceOf_eq_23 {k : Int} (hlow : 951 ≤ k) (hhigh : k ≤ 993) : sequenceOf k = 23 := by
  rw [eq_comm, eq_sequenceOf_iff (by omega)]
  omega

/-- Settles O40: the two ranges of speeds are ranges of the quantized speed. -/
theorem speedIsNotClamped : Obligations.SpeedIsNotClamped := by
  refine ⟨fun k => sequenceOf_eq_23, rfl, fun spd s hfin => ⟨fun hlow hhigh => ?_, fun hlow => ?_⟩, fun s =>
    ⟨exec_setspd_half (by decide) s, exec_setspd_half (by decide) s⟩⟩
  · have hk : 951 ≤ (exactSteps spd).1 := (le_exactSteps_fst_iff _ _).mpr (by push_cast; linarith)
    have hk' : (exactSteps spd).1 < 994 := (exactSteps_fst_lt_iff _ _).mpr (by push_cast; linarith)
    have hwrite := exec_setspd_half hfin s
    rwa [exactSteps_snd, sequenceOf_eq_23 hk (by omega)] at hwrite
  · have hk : 994 ≤ (exactSteps spd).1 := (le_exactSteps_fst_iff _ _).mpr (by push_cast; linarith)
    have hle : sequenceOf (exactSteps spd).1 ≤ 22 := sequenceOf_antitone (k := 994) (by decide) hk
    have hval := toNat_speedHalf hfin ((exactSteps_fst_nonneg_iff spd).mp (by omega))
    obtain ⟨t, ht, hw⟩ := exec_setspd_writes (not_isNan_of_finite hfin) s
    exact ⟨t, ht, by rw [hw.half]; omega⟩

/-! ### Negative speeds (R116) -/

theorem sequenceOf_nonpos_of_neg {k : Int} (h : k < 0) : sequenceOf k ≤ 0 := by
  rw [sequenceOf_reflect h]
  exact neg_nonpos.mpr (sequenceOf_range_of_nonneg (by omega)).1

/-- Zero's quantized speed, from -1/20 up to below 1/20, writes `AE B0` under either policy (R112, R116). -/
theorem setspdWith_exact_zero (policy : SpeedNegPolicy) {spd : Arg} (hfin : f32Exp spd ≠ 0xFF)
    (hk : (exactSteps spd).1 = 0) (s : State) :
    ∃ t, setspdWith .exactRational policy spd s = .next t ∧ SpeedWritten 0xAEB0 0 s t := by
  have hwrite := setspdWith_exact_nonneg policy hfin hk.ge s
  rwa [exactSteps_snd, hk] at hwrite

/-- Settles O43: a speed below -1/20 is a negative quantized speed. -/
theorem negativeSpeeds : Obligations.NegativeSpeeds := by
  refine ⟨fun policy spd s hfin hspd => ?_, fun spd s hfin hv => ?_, (exactSteps_fst_neg_iff _).mp (by decide),
    by decide, by decide, by decide, fun s =>
    ⟨exec_setspd_bytes (by decide) s, exec_setspd_bytes (by decide) s, exec_setspd_bytes (by decide) s⟩⟩
  · have hk : (exactSteps spd).1 = 0 := by
      rcases hspd with ⟨hlow, hneg⟩ | rfl
      · have hnonneg := (exactSteps_fst_nonneg_iff spd).mpr hlow
        have hlt : (exactSteps spd).1 < 1 := (exactSteps_fst_lt_iff 1 spd).mpr (by push_cast; linarith)
        omega
      · decide
    obtain ⟨t, ht, hw⟩ := setspdWith_exact_zero policy hfin hk s
    exact ⟨t, ht, hw.high, hw.low, hw.draws⟩
  · have hk := (exactSteps_fst_neg_iff spd).mpr hv
    obtain ⟨t, ht, hw⟩ := setspdWith_draw_neg hfin hk s
    exact ⟨hk, sequenceOf_nonpos_of_neg hk, exec_setspd_half hfin s, t, ht, hw.half, hw.draws⟩

end Sys2Proof.Machine
end

section
/-! The checksum generator (42_checksum.md): the checksum as a function of the message's bytes (R132), what `CHKSUM`
answers (R130, R133), what `FINAL` stores and emits (R135, R136), and the records on `TX` (R137). -/

namespace Sys2Proof.Machine

/-! ### The checksum of a message (R130, R132) -/

/-- A difference put into a byte below byte 13 comes out of the checksum (R132). -/
theorem checksum_msgSet_xor (m : Message) {i : Fin 14} (hi : i ≠ 13) (d : Byte) :
    checksum (msgSet m i (msgByte m i ^^^ d)) = checksum m ^^^ d := by
  fin_cases i
  iterate 13
    · simp only [checksum, msgByte_msgSet, Fin.reduceFinMk, Fin.reduceEq, if_false, if_true]
      ac_rfl
  · exact absurd rfl hi

theorem checksum_msgSet (m : Message) {i : Fin 14} (hi : i ≠ 13) (b : Byte) :
    checksum (msgSet m i b) = checksum m ^^^ (msgByte m i ^^^ b) := by
  have hb : msgByte m i ^^^ (msgByte m i ^^^ b) = b := by
    rw [← BitVec.xor_assoc, BitVec.xor_self, BitVec.zero_xor]
  rw [← checksum_msgSet_xor m hi, hb]

/-- The header constants contribute `0x0D` (R132). -/
theorem checksum_of_headerConstant {m : Message} (h : headerConstant m) :
    checksum m = 0x0D ^^^ msgByte m 4 ^^^ msgByte m 6 ^^^ msgByte m 7 ^^^ msgByte m 8 ^^^ msgByte m 9 ^^^
      msgByte m 10 ^^^ msgByte m 11 ^^^ msgByte m 12 := by
  obtain ⟨h0, h1, h2, h3, h5⟩ := h
  simp [checksum, h0, h1, h2, h3, h5]

/-- Settles O49: a byte's difference comes out of the checksum, and after `FINAL` byte 13 is the checksum. -/
theorem checksumIsLinear : Obligations.ChecksumIsLinear :=
  ⟨fun m _ b hi => checksum_msgSet m hi b, fun s => ⟨_, exec_final s, by simp⟩,
    fun _ => checksum_of_headerConstant⟩

/-! ### Byte 13 is no input -/

/-- Messages that agree on bytes 0 to 12 differ by a write of byte 13. -/
theorem eq_msgSet_13_of_agree {m m' : Message} (h : ∀ k, k ≠ 13 → msgByte m k = msgByte m' k) :
    m' = msgSet m 13 (msgByte m' 13) := by
  refine message_ext fun k => ?_
  by_cases hk : k = 13
  · simp [hk]
  · simp [h k hk, Ne.symm hk]

/-- A second write of a byte hides the first. -/
theorem msgSet_msgSet_same (m : Message) (i : Fin 14) (v w : Byte) : msgSet (msgSet m i v) i w = msgSet m i w :=
  Vector.set_set v i.isLt

/-- Settles O50: the two messages differ by a write of byte 13, which the checksum does not read and `FINAL`
overwrites. -/
theorem staleByteDoesNotReachTheOutputs : Obligations.StaleByteDoesNotReachTheOutputs := by
  intro s s' h
  have hmsg : s'.msg = msgSet s.msg 13 (s'.byte 13) := eq_msgSet_13_of_agree h
  have hchecksum : checksum s'.msg = checksum s.msg := by rw [hmsg, checksum_msgSet_13]
  have hfinal : msgSet s'.msg 13 (checksum s'.msg) = msgSet s.msg 13 (checksum s.msg) := by
    rw [hchecksum, hmsg, msgSet_msgSet_same]
  exact ⟨⟨_, _, exec_chksum s, exec_chksum s', by simp [hchecksum]⟩,
    _, _, msgSet s.msg 13 (checksum s.msg), exec_final s, exec_final s', rfl, by simp [hfinal], hfinal.symm⟩

/-! ### The records on `TX` (R137) -/

/-- Settles O54: the invariant says it of every record, and of the commands `FINAL` alone appends. -/
theorem everyRecordIsMarkedAndFresh : Obligations.EveryRecordIsMarkedAndFresh := by
  refine ⟨fun s hs r hr => hs.inv.records r hr, fun i s t h hne => ?_⟩
  rcases exec_tx h with ⟨htx, -⟩ | ⟨hi, -⟩
  · exact absurd htx hne
  · exact hi

/-! ### `CHKSUM` (R130, R133) -/

/-- `CHKSUM` and `FINAL` take no operand (R62). -/
theorem reservedBitSet_commandWord_checksum {op : BitVec 8} (hop : op = 0x06 ∨ op = 0x07) {a : Arg} (h : a ≠ 0) :
    reservedBitSet (commandWord op a) :=
  .inl ⟨.inr (by rwa [opField_commandWord]), by rwa [argField_commandWord]⟩

/-- Settles O48: the answer is the checksum, and nothing but the response is written. -/
theorem chksumAnswersTheXor : Obligations.ChksumAnswersTheXor := fun s =>
  ⟨⟨_, exec_chksum s, rfl, rfl, by simp [keepsAllButMsg]⟩, execWord_encode (i := .chksum) rfl s,
    fun _ ha => execWord_reservedBitSet (reservedBitSet_commandWord_checksum (.inl rfl) ha) s,
    _, exec_chksum _, congrArg (some <| Response.data ·) (checksum_defaultMessage _)⟩

/-- Settles O51: `CHKSUM` answers the checksum of the message it leaves, which `FINAL` stores. -/
theorem chksumForetellsTheEmittedByte : Obligations.ChksumForetellsTheEmittedByte := fun s =>
  ⟨_, _, checksum s.msg, _, exec_chksum s, rfl, rfl, by simp [keepsAllButMsg], exec_final _, rfl, by simp⟩

/-! ### `FINAL` (R135, R136) -/

/-- A record holds its bytes in index order (R42). -/
theorem message_toList (m : Message) :
    m.toList = [msgByte m 0, msgByte m 1, msgByte m 2, msgByte m 3, msgByte m 4, msgByte m 5, msgByte m 6, msgByte m 7,
      msgByte m 8, msgByte m 9, msgByte m 10, msgByte m 11, msgByte m 12, msgByte m 13] := by
  have hbytes : m = Vector.ofFn (msgByte m) := message_ext fun k => by simp [msgByte]
  exact (congrArg Vector.toList hbytes).trans (Vector.toList_ofFn.trans rfl)

/-- Settles O52: the record is the message as the write of byte 13 leaves it. -/
theorem finalStoresTheChecksumAndEmits : Obligations.FinalStoresTheChecksumAndEmits := by
  refine fun s => ⟨⟨_, msgSet s.msg 13 (checksum s.msg), exec_final s, by simp, fun k hk => ?_, rfl, fun _ => rfl,
    by simp [message_toList], rfl, rfl, rfl, rfl⟩, execWord_encode (i := .final) rfl s, fun a ha => ?_,
    _, exec_final _, ?_, ?_⟩
  · simp [hk.symm]
  · exact ⟨_, execWord_reservedBitSet (reservedBitSet_commandWord_checksum (.inr rfl) ha) s, rfl, rfl, rfl⟩
  · exact checksum_defaultMessage _
  · exact congrArg ([defaultMessage ·]) (checksum_defaultMessage _)

/-- `FINAL`, from a state with the message and the `TX` that a `FINAL` left, emits that message again (R136). -/
theorem exec_final_again {s t u v : State} (ht : exec .final s = .next t) (hmsg : u.msg = t.msg) (htx : u.tx = t.tx)
    (hv : exec .final u = .next v) : v.tx = s.tx ++ [t.msg, t.msg] ∧ v.msg = t.msg := by
  have hvmsg : v.msg = t.msg := by
    cases ht
    cases hv
    simp [hmsg, msgSet_eq_self]
  refine ⟨?_, hvmsg⟩
  rw [exec_final_tx hv, htx, exec_final_tx ht, hvmsg, List.append_assoc]
  rfl

/-- Settles O53: a read between them leaves the message and `TX`. -/
theorem finalTwiceEmitsTheSameRecord : Obligations.FinalTwiceEmitsTheSameRecord := by
  intro s between hread
  obtain ⟨t, ht⟩ := exec_next .final s
  obtain ⟨u, hu⟩ := exec_next between t
  obtain ⟨v, hv⟩ := exec_next .final u
  obtain ⟨w, hw⟩ := exec_next .final t
  have hutx : u.tx = t.tx := by
    rcases exec_tx hu with ⟨htx, -⟩ | ⟨rfl, -⟩
    · exact htx
    · simp at hread
  obtain ⟨hvtx, hvmsg⟩ := exec_final_again ht (exec_read_msg hread hu) hutx hv
  obtain ⟨hwtx, hwmsg⟩ := exec_final_again ht rfl rfl hw
  exact ⟨t, u, v, w, t.msg, ht, hu, hv, hvtx, hvmsg, hw, hwtx, hwmsg⟩

end Sys2Proof.Machine
end

section
/-! Read-back (43_readback.md): what `RD` answers and leaves, its words, and its two faults (R150). -/

namespace Sys2Proof.Machine

/-- `RD` takes its index in the low four bits of the operand (R62). -/
theorem reservedBitSet_commandWord_rd {a : Arg} (h : a.extractLsb' 4 28 ≠ 0) : reservedBitSet (commandWord 0x08 a) :=
  .inr (.inr ⟨opField_commandWord _ _, by rwa [argField_commandWord]⟩)

/-- The word of an index without a byte is refused (R67). -/
theorem execWord_commandWord_rd_bad {idx : BitVec 4} (h : 14 ≤ idx.toNat) (s : State) :
    execWord (commandWord 0x08 (idx.setWidth 32)) s = .next (s.raiseFault .badIndex) := by
  obtain ⟨hhigh, hlow⟩ := (eq_setWidth_iff (n := 28) (m := 4) (x := idx)).mp rfl
  have hdecode : decodeIndex (idx.setWidth 32) = .refused .badIndex :=
    decodeIndex_refused hhigh (by rwa [hlow])
  refine execWord_refused ((decode_rd (opField_commandWord _ _)).trans ?_) s
  rwa [argField_commandWord]

/-- Settles O57: an index below 14 is answered, by the command as by its word, and any other operand faults. -/
theorem rdAnswersTheByte : Obligations.RdAnswersTheByte := by
  refine fun idx s => ⟨fun hidx => ?_, fun hbad => ?_, fun a ha => ?_,
    ⟨_, exec_rd (by decide) _, rfl⟩, ⟨_, exec_rd (by decide) _, rfl⟩⟩
  · exact ⟨_, exec_rd hidx s, rfl, rfl, by simp [keepsAllButMsg],
      execWord_encode (i := .rd idx) (wf_rd_iff.mpr hidx) s⟩
  · have hrange : 14 ≤ idx.toNat := by rcases hbad with rfl | rfl <;> decide
    exact ⟨exec_rd_bad hrange s, execWord_commandWord_rd_bad hrange s⟩
  · exact execWord_reservedBitSet (reservedBitSet_commandWord_rd ha) s

end Sys2Proof.Machine
end

section
/-! Faults (60_exceptions.md): a fault is precise (R161), of several the first in the fixed order is reported (R163), and
the block leads on from every state (R165, R172). -/

namespace Sys2Proof.Machine

/-! ### What a fault response says of the command and of the word -/

/-- A command that responds with a fault has recorded that fault and done nothing else (R161), and the fault is its
operand's (R67, R114). -/
theorem exec_fault {i : Instr} {s t : State} {c : Cause} (h : exec i s = .next t)
    (hc : t.response = some (.fault c)) :
    t = s.raiseFault c ∧ (i.wf = false ∨ ∃ spd, i = .setspd spd ∧ c = .speedNan) := by
  rcases exec_cases h with ⟨-, rfl⟩ | ⟨-, rfl⟩ | ⟨-, rfl⟩ | ⟨-, rfl⟩ | ⟨-, rfl⟩ | ⟨-, rfl⟩ | ⟨-, rfl⟩ | ⟨_, -, rfl⟩ |
    ⟨_, -, -, rfl⟩ | ⟨-, rfl⟩ | ⟨-, rfl⟩ | ⟨_, _, -, rfl⟩ | ⟨d, rfl, hd⟩
  iterate 12 simp at hc
  obtain rfl : d = c := by simpa using hc
  refine ⟨rfl, ?_⟩
  rcases hd with ⟨rfl, -⟩ | ⟨rfl, -⟩ | ⟨idx, rfl, hidx, -⟩ | ⟨spd, rfl, -, hcause⟩
  · exact .inl rfl
  · exact .inl rfl
  · exact .inl (decide_eq_false hidx.not_gt)
  · exact .inr ⟨spd, rfl, hcause⟩

/-- A word that faults is refused by the decoder, or is a `SETSPD`: the decoder passes on no other operand that
faults (R69). -/
theorem execWord_fault {w : CmdWord} {s t : State} {c : Cause} (h : execWord w s = .next t)
    (hc : t.response = some (.fault c)) :
    t = s.raiseFault c ∧ (decode w = .refused c ∨ opField w = 0x05 ∧ c = .speedNan) := by
  cases hdecode : decode w with
  | refused d =>
    rw [execWord_refused hdecode] at h
    cases h
    obtain rfl : d = c := by simpa using hc
    exact ⟨rfl, .inl rfl⟩
  | ok i =>
    rw [execWord_ok hdecode] at h
    obtain ⟨hwf, hop, -⟩ := fields_of_decode hdecode
    obtain ⟨ht, hbad | ⟨spd, rfl, hcause⟩⟩ := exec_fault h hc
    · simp [hwf] at hbad
    · exact ⟨ht, .inr ⟨hop.symm, hcause⟩⟩

theorem cause_eq_of_refused {w : CmdWord} {s t : State} {c d : Cause} (hdecode : decode w = .refused d)
    (h : execWord w s = .next t) (hc : t.response = some (.fault c)) : c = d := by
  rw [execWord_refused hdecode] at h
  cases h
  simpa using hc.symm

/-! ### Which causes the decoder names -/

theorem decodeNoOperand_of_refused {a : Arg} {i : Instr} {c : Cause} (h : decodeNoOperand a i = .refused c) :
    a ≠ 0 := by
  rintro rfl
  cases h

theorem decodeCode_of_refused {a : Arg} {bad c : Cause} {f : BitVec 2 → Instr}
    (h : decodeCode a bad f = .refused c) : a.extractLsb' 2 30 ≠ 0 ∨ c = bad := by
  unfold decodeCode at h
  split_ifs at h with hreserved hcode
  · exact .inl hreserved
  · cases h
    exact .inr rfl

theorem decodeIndex_of_refused {a : Arg} {c : Cause} (h : decodeIndex a = .refused c) :
    a.extractLsb' 4 28 ≠ 0 ∨ c = .badIndex := by
  unfold decodeIndex at h
  split_ifs at h with hreserved hidx
  · exact .inl hreserved
  · cases h
    exact .inr rfl

/-- A refused word has an illegal opcode, a reserved bit set, or the operand fault of its opcode (R65 to R67). -/
theorem decode_refused_cases {w : CmdWord} {c : Cause} (h : decode w = .refused c) :
    opcodeIllegal w ∨ reservedBitSet w ∨ (opField w = 0x02 ∧ c = .badMode) ∨ (opField w = 0x03 ∧ c = .badLed) ∨
      (opField w = 0x08 ∧ c = .badIndex) := by
  rcases opcode_cases w with hop | hop | hop | hop | hop | hop | hop | hop | hop
  · have harg := decodeNoOperand_of_refused ((decode_init hop).symm.trans h)
    exact .inr (.inl (.inl ⟨.inl hop, harg⟩))
  · rcases decodeCode_of_refused ((decode_setmode hop).symm.trans h) with harg | hc
    · exact .inr (.inl (.inr (.inl ⟨.inl hop, harg⟩)))
    · exact .inr (.inr (.inl ⟨hop, hc⟩))
  · rcases decodeCode_of_refused ((decode_setled hop).symm.trans h) with harg | hc
    · exact .inr (.inl (.inr (.inl ⟨.inr hop, harg⟩)))
    · exact .inr (.inr (.inr (.inl ⟨hop, hc⟩)))
  · cases (decode_setbat hop).symm.trans h
  · cases (decode_setspd hop).symm.trans h
  · have harg := decodeNoOperand_of_refused ((decode_chksum hop).symm.trans h)
    exact .inr (.inl (.inl ⟨.inr (.inl hop), harg⟩))
  · have harg := decodeNoOperand_of_refused ((decode_final hop).symm.trans h)
    exact .inr (.inl (.inl ⟨.inr (.inr hop), harg⟩))
  · rcases decodeIndex_of_refused ((decode_rd hop).symm.trans h) with harg | hc
    · exact .inr (.inl (.inr (.inr ⟨hop, harg⟩)))
    · exact .inr (.inr (.inr (.inr ⟨hop, hc⟩)))
  · exact .inl hop

/-! ### Precision and priority -/

/-- Settles O9: the state after the word is the one before it with the fault raised, and `STATUS` keeps the first
cause. -/
theorem faultingCommandOnlyRecordsTheFault : Obligations.FaultingCommandOnlyRecordsTheFault := by
  intro w s t c h hc
  obtain ⟨rfl, -⟩ := execWord_fault h hc
  refine ⟨rfl, rfl, rfl, rfl, rfl, fun hfirst => ?_, fun hlater => ?_⟩
  · rw [State.raiseFault_status, StatusReg.afterFault_of_noFault hfirst]
  · rw [State.raiseFault_status, StatusReg.afterFault_of_fault hlater]

/-- Settles O10: the decoder refuses an illegal opcode and a reserved bit by these causes, and what else it refuses, and
what `SETSPD` raises itself, is the operand fault of the opcode. -/
theorem faultIsTheFirstByPriority : Obligations.FaultIsTheFirstByPriority := by
  refine ⟨fun w s t c h hc => ⟨fun hop => ?_, fun _ hreserved => ?_, fun hlegal hclean => ?_⟩, fun s => ?_⟩
  · exact cause_eq_of_refused (decode_opcodeIllegal hop) h hc
  · exact cause_eq_of_refused (decode_reservedBitSet hreserved) h hc
  · obtain ⟨-, hdecode | hspeed⟩ := execWord_fault h hc
    · rcases decode_refused_cases hdecode with hop | hreserved | hmode | hled | hidx
      · exact absurd hop hlegal
      · exact absurd hreserved hclean
      · exact .inl hmode
      · exact .inr (.inl hled)
      · exact .inr (.inr (.inl hidx))
    · exact .inr (.inr (.inr hspeed))
  · exact execWord_reservedBitSet (by decide) s

/-! ### Every step leads on -/

/-- Every word completes, as a command or as a fault (R161). -/
theorem execWord_next (w : CmdWord) (s : State) : ∃ t, execWord w s = .next t := by
  cases hdecode : decode w with
  | ok i =>
    rw [execWord_ok hdecode]
    exact exec_next i s
  | refused c => exact ⟨_, execWord_refused hdecode s⟩

/-- Settles O15, by what the host presents. -/
theorem blockNeverStops : Obligations.BlockNeverStops := by
  intro s
  match hin : s.inputs with
  | [] => exact ⟨s, step_idle hin⟩
  | .reset :: es => exact ⟨_, step_reset hin⟩
  | .command w :: es =>
    rw [step_command hin]
    exact execWord_next w _

end Sys2Proof.Machine
end

section
/-! Reset and hazards (70_reset_and_hazards.md): what a reset event leaves (R190), what the first command after it finds
(R191), and the two orders of blanking and of switching the LED on (R196). -/

namespace Sys2Proof.Machine

/-- No fault is recorded after a reset, whatever was recorded before it (R190). -/
@[simp] theorem statusOut_applyReset (s : State) : s.applyReset.statusOut = 0x00 := by
  simp [State.statusOut, StatusReg.toByte]

/-- Settles O18: the step is `applyReset`, which writes the default message with the drawn byte 13. -/
theorem resetEventSetsTheResetValues : Obligations.ResetEventSetsTheResetValues := fun _ _ hin =>
  ⟨_, step_reset hin, by simp⟩

/-- Byte 13 is the one byte the default message leaves open (R33). -/
theorem msgSet_13_defaultMessage (c v : Byte) : msgSet (defaultMessage c) 13 v = defaultMessage v := rfl

/-- `FINAL` on an empty `TX` and a default message emits that message with its checksum, whatever byte 13 held (R191). -/
theorem exec_final_tx_of_defaultMessage {s t : State} {c : Byte} (hmsg : s.msg = defaultMessage c) (htx : s.tx = [])
    (h : exec .final s = .next t) : t.tx = [defaultMessage 0xF4] := by
  cases h
  simp [hmsg, htx, checksum_defaultMessage, msgSet_13_defaultMessage]

/-- Settles O19: every command completes from every state, and the reset state holds a default message. -/
theorem finalAfterResetEmitsTheDefaultMessage : Obligations.FinalAfterResetEmitsTheDefaultMessage :=
  ⟨fun i => exec_next i State.reset,
    _, exec_final _, exec_final_tx_of_defaultMessage (c := Config.resetChk 0) rfl rfl (exec_final _)⟩

/-- Settles O33: Blank and On both write byte 10, where the later write stands; On leaves byte 4 and Blank byte 12. -/
theorem blankAfterLedOnLosesTheLedOnFlag : Obligations.BlankAfterLedOnLosesTheLedOnFlag := fun s =>
  ⟨⟨_, _, exec_setled_on s, exec_setmode_blank _, by simp, by simp, by simp⟩,
    ⟨_, _, exec_setmode_blank s, exec_setled_on _, by simp, by simp, by simp, by simp⟩,
    _, _, exec_setled_blink s, exec_setmode_blank _, by simp, by simp⟩

end Sys2Proof.Machine
end
